-- ==== Sys2Proof/Word.lean ====
section
/-! DEFINITION. The two word types of the engine: a register value and a byte (00_scope.md R6). -/

namespace Sys2Proof

/-- A `u32`: a register value, a command word, a type code, a CRC (R6). -/
abbrev Word := BitVec 32

/-- A `u8`: one byte of host memory or of a slot RAM (R6). -/
abbrev Byte := BitVec 8

end Sys2Proof
end

