-- ==== Sys2Proof/Config.lean ====
section
/-! DEFINITION. The parameters of 00_scope.md R4 and the model's free values. A parameter this
hardware fixes is a number; one the spec leaves OPEN, and every value the spec leaves unspecified, is
an `opaque` constant with no body, so that nothing can be proved about what it is. -/

namespace Sys2Proof.Config

/-- `MAX_CHUNK_LEN`, the largest chunk data length (R4). -/
abbrev maxChunkLen : Nat := 0x7FFFFFFF

/-- `SLOT_BYTES`, the capacity of one slot RAM and the allocation ceiling (R4, R5). -/
abbrev slotBytes : Nat := 0x00400000

/-- `NUM_SLOTS`, the number of chunk slots (R4). -/
abbrev numSlots : Nat := 4

/-- `2^ADDR_WIDTH`: the number of addresses of host memory (R4, 20_memory.md R38). -/
abbrev memBytes : Nat := 0x100000000

/-- The size of the device window (20_memory.md R40). -/
abbrev windowBytes : Nat := 0x05000000

/-- `DESER_VALIDATES_TYPE`, OPEN (R4, 90_conflicts.md C1; log 5). -/
opaque deserValidatesType : Bool

/-- How many units of `0x0800_0000` the device window's base stands above 0: `BASE` is OPEN but
aligned (R4; log 6). -/
opaque baseUnits : Nat

/-- `BASE`, the host-bus address of the device window (R4; log 6). -/
def base : Nat := 0x08000000 * baseUnits

/-- The `n`-th draw of an unspecified byte: a read of an UNWRITTEN cell (10_state.md R32) or a byte an
abandoned command leaves (70_reset_and_hazards.md R104). Free (log 2). -/
opaque freeByte : Nat → Byte

/-- The platform's byte at an address of `M` that nothing has written (20_memory.md R38, 93 U15). Free
(log 4). -/
opaque platformByte : Nat → Byte

/-- How many host accesses come between an issue and the engine's step, for the `n`-th draw
(70_reset_and_hazards.md R112, 93 U13). Free (log 1). -/
opaque freeDelay : Nat → Nat

end Sys2Proof.Config
end

