-- ==== Sys2Proof/Syntax.lean ====
section
/-! DEFINITION. The commands of the engine: one constructor per row of spec/opcode_table.json
(30_encoding.md R60). Slot operands are the unsigned numbers `sa`, `sb` of R57. -/

namespace Sys2Proof

/-- A command (30_encoding.md R60). Every operand other than a slot number is read from the latched
operand registers (R57, R58). -/
inductive Instr where
  /-- `NOP` (40_crc_engine.md R75). -/
  | nop
  /-- `CRC` (40_crc_engine.md R76). -/
  | crc
  /-- `CREATE sA` (41_chunk_codec.md R81). -/
  | create (sa : Nat)
  /-- `ADOPT sA` (41_chunk_codec.md R82). -/
  | adopt (sa : Nat)
  /-- `SER sA` (41_chunk_codec.md R83). -/
  | ser (sa : Nat)
  /-- `DESER sA` (41_chunk_codec.md R84). -/
  | deser (sa : Nat)
  /-- `CLEAR sA` (41_chunk_codec.md R85). -/
  | clear (sa : Nat)
  /-- `FREE sA` (41_chunk_codec.md R86). -/
  | free (sa : Nat)
  /-- `SWAP sA, sB` (41_chunk_codec.md R87). -/
  | swap (sa sb : Nat)
  deriving DecidableEq, Repr

end Sys2Proof
end

