-- ==== Sys2Proof/WellFormed.lean ====
section
/-! DEFINITION. Which commands have an encoding: each slot operand fits its 4-bit field
(30_encoding.md R56). Whether the configuration has the slot is not asked here: R61 makes that an
error of the command, not of the word. -/

namespace Sys2Proof

/-- A slot operand fits its field: "first slot operand, 0 to 15" (R56). -/
def slotFieldFits (n : Nat) : Bool := decide (n < 16)

/-- A command that some word encodes. -/
def Instr.wf : Instr → Bool
  | .nop => true
  | .crc => true
  | .create sa => slotFieldFits sa
  | .adopt sa => slotFieldFits sa
  | .ser sa => slotFieldFits sa
  | .deser sa => slotFieldFits sa
  | .clear sa => slotFieldFits sa
  | .free sa => slotFieldFits sa
  | .swap sa sb => slotFieldFits sa && slotFieldFits sb

end Sys2Proof
end

