-- ==== Sys2Proof/Decode.lean ====
section
/-! DEFINITION. The command word (30_encoding.md R56 to R62): its fields, the decoder, which is total
and rejects by name, and the encoder of R60 and R64. -/

namespace Sys2Proof

/-- Why a word selects no command (R59, R62). -/
inductive IllegalWord where
  /-- `RSV`, bits 31:16, is not 0. -/
  | reservedBits
  /-- `OP` is none of `0x00` to `0x08`. -/
  | reservedOpcode
  /-- A slot field the command does not use is not 0. -/
  | unusedSlotField
  deriving DecidableEq, Repr

/-- `OP`, bits 7:0 (R56). -/
def opField (w : Word) : Nat := (w.extractLsb' 0 8).toNat

/-- `SA`, bits 11:8, zero-extended (R56, R57). -/
def saField (w : Word) : Nat := (w.extractLsb' 8 4).toNat

/-- `SB`, bits 15:12, zero-extended (R56, R57). -/
def sbField (w : Word) : Nat := (w.extractLsb' 12 4).toNat

/-- `RSV`, bits 31:16 (R56). -/
def rsvField (w : Word) : Nat := (w.extractLsb' 16 16).toNat

/-- A command without slot operands: both slot fields must be 0 (R59). -/
def noSlots (sa sb : Nat) (i : Instr) : Except IllegalWord Instr :=
  if sa ≠ 0 ∨ sb ≠ 0 then .error .unusedSlotField else .ok i

/-- A command with the one slot operand `SA`: `SB` must be 0 (R59). -/
def oneSlot (sa sb : Nat) (make : Nat → Instr) : Except IllegalWord Instr :=
  if sb ≠ 0 then .error .unusedSlotField else .ok (make sa)

/-- The decoder, with the checks in the order of R59. -/
def decode (w : Word) : Except IllegalWord Instr :=
  if rsvField w ≠ 0 then .error .reservedBits
  else
    match opField w with
    | 0x00 => noSlots (saField w) (sbField w) .nop
    | 0x01 => noSlots (saField w) (sbField w) .crc
    | 0x02 => oneSlot (saField w) (sbField w) .create
    | 0x03 => oneSlot (saField w) (sbField w) .adopt
    | 0x04 => oneSlot (saField w) (sbField w) .ser
    | 0x05 => oneSlot (saField w) (sbField w) .deser
    | 0x06 => oneSlot (saField w) (sbField w) .clear
    | 0x07 => oneSlot (saField w) (sbField w) .free
    | 0x08 => .ok (.swap (saField w) (sbField w))
    | _ => .error .reservedOpcode

/-- The decoder on a row's word numbered as spec/opcode_table.json numbers it. A command is always one
32-bit word (R56), so a number that needs more bits is no command. -/
def decodeTableWord (_nbits w : Nat) : Option Instr :=
  if w < 2 ^ 32 then (decode (BitVec.ofNat 32 w)).toOption else none

/-- The word with the given fields and `RSV = 0`: `(B << 12) | (A << 8) | OP` (R64). -/
def commandWord (op sa sb : Nat) : Word :=
  (BitVec.ofNat 32 sb <<< 12) ||| (BitVec.ofNat 32 sa <<< 8) ||| BitVec.ofNat 32 op

/-- The encoder, from the word patterns of R60. -/
def encode : Instr → Word
  | .nop => commandWord 0x00 0 0
  | .crc => commandWord 0x01 0 0
  | .create sa => commandWord 0x02 sa 0
  | .adopt sa => commandWord 0x03 sa 0
  | .ser sa => commandWord 0x04 sa 0
  | .deser sa => commandWord 0x05 sa 0
  | .clear sa => commandWord 0x06 sa 0
  | .free sa => commandWord 0x07 sa 0
  | .swap sa sb => commandWord 0x08 sa sb

/-! ## The opcode map -/

/-- A row of the opcode map (R60). -/
structure OpcodeRow where
  mnemonic : String
  pattern : Word
  mask : Word
  deriving DecidableEq, Repr

/-- The word selects the row: `(w & mask) = match` (R60). -/
def OpcodeRow.selects (r : OpcodeRow) (w : Word) : Bool := decide (w &&& r.mask = r.pattern)

/-- The opcode map with its match and mask columns (R60). -/
def opcodeRows : List OpcodeRow :=
  [⟨"NOP", 0x00000000, 0xFFFFFFFF⟩,
   ⟨"CRC", 0x00000001, 0xFFFFFFFF⟩,
   ⟨"CREATE", 0x00000002, 0xFFFFF0FF⟩,
   ⟨"ADOPT", 0x00000003, 0xFFFFF0FF⟩,
   ⟨"SER", 0x00000004, 0xFFFFF0FF⟩,
   ⟨"DESER", 0x00000005, 0xFFFFF0FF⟩,
   ⟨"CLEAR", 0x00000006, 0xFFFFF0FF⟩,
   ⟨"FREE", 0x00000007, 0xFFFFF0FF⟩,
   ⟨"SWAP", 0x00000008, 0xFFFF00FF⟩]

/-- A command's mnemonic in the opcode map (R60). -/
def Instr.mnemonic : Instr → String
  | .nop => "NOP"
  | .crc => "CRC"
  | .create _ => "CREATE"
  | .adopt _ => "ADOPT"
  | .ser _ => "SER"
  | .deser _ => "DESER"
  | .clear _ => "CLEAR"
  | .free _ => "FREE"
  | .swap _ _ => "SWAP"

/-- The row a mnemonic names; mnemonics are case-insensitive, upper case canonical (R66). -/
def rowNamed (text : String) : Option OpcodeRow := opcodeRows.find? fun r => r.mnemonic = text.toUpper

end Sys2Proof
end

