-- ==== Sys2Proof/Machine/HostSyntax.lean ====
section
/-! DEFINITION. What the host can do: the register names (10_state.md R16), the single accesses its
programs are made of (20_memory.md R39, R43, R44) and the statements those programs are written in
(30_encoding.md R63, R64). -/

namespace Sys2Proof.Machine

/-- A register of the block at offsets `0x000` to `0x13F` (R16). -/
inductive Reg where
  | id
  | version
  | params
  | ctrl
  | status
  | cmd
  | err
  | lastCmd
  | typeReg
  | srcAddr
  | srcLen
  | dstAddr
  | dstCap
  | result
  | crcOut
  | crcRcvd
  | slotState (k : Fin 16)
  | slotType (k : Fin 16)
  | slotLen (k : Fin 16)
  deriving DecidableEq, Repr

/-- An operand register (R25), the ones `set` names (R64). -/
inductive OperandReg where
  | typeReg
  | srcAddr
  | srcLen
  | dstAddr
  | dstCap
  deriving DecidableEq, Repr

/-- The width of a host access to the device window (20_memory.md R43, R44). -/
inductive Width where
  | w8
  | w16
  | w32
  deriving DecidableEq, Repr

/-- One host access (20_memory.md R39). `off` is an offset in the device window, `a` an address of
`M`. -/
inductive Access where
  /-- A read of the device window. -/
  | read (off : Nat) (w : Width)
  /-- A write of the device window; a narrow access carries its value in the low bits of `v`. -/
  | write (off : Nat) (w : Width) (v : Word)
  /-- A read of one byte of `M`. -/
  | memRead (a : Nat)
  /-- A write of one byte of `M`. -/
  | memWrite (a : Nat) (b : Byte)
  /-- One `rd STATUS` of a `wait` loop: the loop ends when bit 0 of the value read is 0 (R64). -/
  | poll
  deriving DecidableEq, Repr

/-- A value the host read, with the access that read it (30_encoding.md R65; log 13). -/
structure Reading where
  access : Access
  value : Word
  deriving DecidableEq, Repr

/-- A statement or pseudo-statement of a host program (R63, R64). -/
inductive Stmt where
  | wr (r : Reg) (v : Word)
  | rd (r : Reg)
  | memWb (a : Nat) (bs : List Byte)
  | memRb (a n : Nat)
  | apWb (k off : Nat) (bs : List Byte)
  | apRb (k off n : Nat)
  | cmd (i : Instr)
  | wait
  | ack
  | reset
  | set (rs : List (OperandReg × Word))
  deriving DecidableEq, Repr

end Sys2Proof.Machine
end

