-- ==== Sys2Proof/Machine/State.lean ====
section
/-! DEFINITION. The machine's state as plain data (10_state.md R14), host memory (20_memory.md R38), the
host's remaining program and what it has read (30_encoding.md R65), the model's own fields for what the
spec leaves open, and the state after power-on (70_reset_and_hazards.md R102). -/

namespace Sys2Proof.Machine

/-- Sparse byte storage: the cells that were written, addresses strictly rising. A slot RAM's unlisted
cell is UNWRITTEN (10_state.md R29); an unlisted byte of `M` is the platform's (log 4). -/
abbrev Memory := List Host.Cell

/-- A chunk slot: its record `{FULL, STYPE, SLEN}` (10_state.md R28) and its data RAM (R29). -/
structure Slot where
  full : Bool
  stype : Word
  slen : Word
  ram : Memory
  deriving DecidableEq, Repr

/-- The in-flight command: the `CMD` word and the operand registers copied at issue (10_state.md R33). -/
structure Latch where
  cmd : Word
  typeCode : Word
  srcAddr : Word
  srcLen : Word
  dstAddr : Word
  dstCap : Word
  deriving DecidableEq, Repr

/-- What a region of `M` is when it is not memory (70_reset_and_hazards.md R108). -/
inductive RegionKind where
  /-- Mapped onto the engine's own device window. -/
  | device
  /-- Not backed with memory. -/
  | unbacked
  deriving DecidableEq, Repr

/-- `size` addresses of `M` from `start` that the platform does not give memory to (R108; log 8). -/
structure Region where
  start : Nat
  size : Nat
  kind : RegionKind
  deriving DecidableEq, Repr

/-- Why the machine stops with a fault. All are safe: the model stops where the spec gives the run no
further meaning, or names an address that does not exist. -/
inductive Fault where
  /-- A host write into the in-flight command's input range (R107 (a)). Raised by a host access; safe. -/
  | hazardInputWrite
  /-- A host access of the in-flight command's output range (R107 (b)). Raised by a host access; safe. -/
  | hazardOutputAccess
  /-- A host access of the aperture of a slot the in-flight command names (R107 (c)). Raised by a host
  access; safe. -/
  | hazardAperture
  /-- A command whose operand range meets a region mapped onto the device window (R108). Raised by the
  engine step; safe. -/
  | hazardDeviceMapped
  /-- A command whose operand range meets a region with no memory (R108). Raised by the engine step;
  safe. -/
  | hazardUnbacked
  /-- A device offset at or past the window's size (20_memory.md R40). Raised by a host access; safe. -/
  | outsideWindow
  /-- An address at or past `2^32` (20_memory.md R38). Raised by a host access of `M`; safe. -/
  | outsideMemory
  /-- A host access of `M` in a region the platform gives no memory to (log 8). Raised by a host access;
  safe. -/
  | hostOutsidePlatformMemory
  /-- A command's rule applied with no command latched (log 10). Raised by a meaning, reached by no
  step; safe. -/
  | noCommandInFlight
  deriving DecidableEq, Repr

/-- Why an instruction has no meaning in the model. -/
inductive Refusal where
  /-- The arm of `exec` for this mnemonic has no meaning yet. Raised by `exec`; safe. -/
  | notModelled (mnemonic : String)
  deriving DecidableEq, Repr

/-- The state: R14's tuple, `M`, the host's program and readings, and the model's own last four fields. -/
@[ext]
structure State where
  /-- `CTRL.IRQ_EN` (R20). -/
  irqEn : Bool
  /-- `STATUS.BUSY` (R21). -/
  busy : Bool
  /-- `STATUS.DONE` (R21). -/
  done : Bool
  /-- `STATUS.OVERRUN` (R21). -/
  overrun : Bool
  /-- `STATUS.ACCESS_ERR` (R21). -/
  accessErr : Bool
  /-- `ERR` bits 3:0 (R23). -/
  err : BitVec 4
  /-- `LAST_CMD` (R24). -/
  lastCmd : Word
  /-- `TYPE` (R25). -/
  typeReg : Word
  /-- `SRC_ADDR` (R25). -/
  srcAddr : Word
  /-- `SRC_LEN` (R25). -/
  srcLen : Word
  /-- `DST_ADDR` (R25). -/
  dstAddr : Word
  /-- `DST_CAP` (R25). -/
  dstCap : Word
  /-- `RESULT` (R26). -/
  result : Word
  /-- `CRC_OUT` (R27). -/
  crcOut : Word
  /-- `CRC_RCVD` (R27). -/
  crcRcvd : Word
  /-- `slot[k]` and `ram[k]` (R28, R29). -/
  slots : Vector Slot Config.numSlots
  /-- `latch` (R33). -/
  latch : Option Latch
  /-- The bytes of `M` that were written (20_memory.md R38; log 4). -/
  mem : Memory
  /-- The host accesses still to come, in program order (30_encoding.md R65; log 11). -/
  program : List Access
  /-- The values the host has read, oldest first (30_encoding.md R65; log 13). -/
  reads : List Reading
  /-- The regions of `M` the platform gives no memory to (R108; log 8). No step writes it. -/
  platform : List Region
  /-- How many host accesses still come before the engine's step (R112; log 1). -/
  delay : Nat
  /-- Delays fixed in advance for the next issues; when it is empty a delay is free (log 1). -/
  schedule : List Nat
  /-- How many draws were taken (R32, R104; log 2). -/
  draws : Nat
  deriving DecidableEq, Repr

/-- A slot just after power-on: EMPTY, every RAM cell UNWRITTEN (R102). -/
def Slot.reset : Slot := ⟨false, 0, 0, []⟩

/-- The state after power-on (R102), with nothing placed for the host to do. -/
def State.reset : State where
  irqEn := false
  busy := false
  done := false
  overrun := false
  accessErr := false
  err := 0
  lastCmd := 0
  typeReg := 0
  srcAddr := 0
  srcLen := 0
  dstAddr := 0
  dstCap := 0
  result := 0
  crcOut := 0
  crcRcvd := 0
  slots := Vector.replicate Config.numSlots Slot.reset
  latch := none
  mem := []
  program := []
  reads := []
  platform := []
  delay := 0
  schedule := []
  draws := 0

end Sys2Proof.Machine
end

