-- ==== Sys2Proof/Machine/Flags.lean ====
section
/-! DEFINITION. The engine's flags: the error codes (60_exceptions.md R92), the `STATUS` word with its
write-one-to-clear bits (10_state.md R21) and the interrupt line (R35). -/

namespace Sys2Proof.Machine

/-- The kinds of R92. -/
inductive ErrorKind where
  | ok
  | nullArgument
  | illegalArgument
  | outOfMemory
  | incompleteData
  | malformedData
  | checksumMismatch
  | capacityExceeded
  | illegalCommand
  deriving DecidableEq, Repr

/-- The code `ERR[3:0]` holds for each kind (R92). Codes 9 to 15 are reserved and never written. -/
def ErrorKind.code : ErrorKind → BitVec 4
  | .ok => 0
  | .nullArgument => 1
  | .illegalArgument => 2
  | .outOfMemory => 3
  | .incompleteData => 4
  | .malformedData => 5
  | .checksumMismatch => 6
  | .capacityExceeded => 7
  | .illegalCommand => 8

/-- The bit `b` at position `i` of a register value. -/
def bitAt (b : Bool) (i : Nat) : Word := if b then BitVec.twoPow 32 i else 0

/-- What a read of `STATUS` returns (R21). -/
def State.statusWord (s : State) : Word :=
  bitAt s.busy 0 ||| bitAt s.done 1 ||| bitAt s.overrun 2 ||| bitAt s.accessErr 3

/-- A write of `v` to `STATUS`: bits 1 to 3 are cleared where `v` has a 1; nothing else changes (R21).
Writing 1 to bit 1 is the acknowledgement of a completion (60_exceptions.md R97). -/
def State.clearStatus (s : State) (v : Word) : State :=
  { s with
    done := s.done && !v[1]
    overrun := s.overrun && !v[2]
    accessErr := s.accessErr && !v[3] }

/-- What a read of `ERR` returns: bits 31:4 read 0 (R23). -/
def State.errWord (s : State) : Word := s.err.setWidth 32

/-- What a read of `CTRL` returns: `IRQ_EN` in bit 0, everything else 0 (R20). -/
def State.ctrlWord (s : State) : Word := bitAt s.irqEn 0

/-- The interrupt output `IRQ = CTRL.IRQ_EN & STATUS.DONE` (R35, 60_exceptions.md R96). -/
def State.irq (s : State) : Bool := s.irqEn && s.done

/-- An ill-formed or refused host access: `ACCESS_ERR <- 1` (20_memory.md R43, R44). -/
def State.flagAccessErr (s : State) : State := { s with accessErr := true }

end Sys2Proof.Machine
end

