-- ==== Sys2Proof/Machine/Ops.lean ====
section
/-! DEFINITION. The shared operations: byte order (00_scope.md R7), sparse byte storage, the accesses of
`M` and of the slot RAMs (R8), the draws of unspecified bytes, the completion of a command
(60_exceptions.md R91) and what a soft reset sets (70_reset_and_hazards.md R103). -/

namespace Sys2Proof.Machine

/-! ## Byte order -/

/-- `toBE32(v)`: four bytes, the most significant first (R7). -/
def toBE32 (v : Word) : List Byte :=
  [v.extractLsb' 24 8, v.extractLsb' 16 8, v.extractLsb' 8 8, v.extractLsb' 0 8]

/-- `BE32([b0, b1, b2, b3])`: the first byte is the most significant (R7). -/
def be32 (b0 b1 b2 b3 : Byte) : Word := b0 ++ b1 ++ b2 ++ b3

/-! ## Sparse byte storage -/

/-- The byte written at an address, if one was. -/
def Memory.lookup : Memory → Nat → Option Byte
  | [], _ => none
  | (k, b) :: rest, a => if k = a then some b else Memory.lookup rest a

/-- The cells of a byte list laid out from an address. -/
def cellsFrom : Nat → List Byte → Memory
  | _, [] => []
  | a, b :: bs => (a, b) :: cellsFrom (a + 1) bs

/-- The storage after the bytes `bs` are written from `a` on. Writing no byte changes nothing. -/
def Memory.write (m : Memory) (a : Nat) (bs : List Byte) : Memory :=
  if bs = [] then m
  else m.filter (fun c => decide (c.1 < a)) ++ cellsFrom a bs
    ++ m.filter (fun c => decide (a + bs.length ≤ c.1))

/-- The canonical form over the addresses below `size`: strictly rising, none outside. An unlisted
address has no written value, so no entry can repeat it (log 4). -/
abbrev Memory.wfBelow (size : Nat) (m : Memory) : Prop :=
  m.Pairwise (fun x y => x.1 < y.1) ∧ ∀ c ∈ m, c.1 < size

/-- The canonical form of host memory (20_memory.md R38). -/
abbrev Memory.wf (m : Memory) : Prop := Memory.wfBelow Config.memBytes m

/-- The canonical form of a slot RAM (10_state.md R29). -/
abbrev Memory.ramWf (m : Memory) : Prop := Memory.wfBelow Config.slotBytes m

/-! ## Host memory -/

/-- `M[a]`: the byte written there, else the platform's (20_memory.md R38; log 4). -/
def State.readByte (s : State) (a : Nat) : Byte := (s.mem.lookup a).getD (Config.platformByte a)

/-- `MemRead(a, n)` (00_scope.md R8). -/
def State.readMem (s : State) (a n : Nat) : List Byte := (List.range n).map fun i => s.readByte (a + i)

/-- `BE32(MemRead(a, 4))` (R7, R8). -/
def State.readWord (s : State) (a : Nat) : Word :=
  be32 (s.readByte a) (s.readByte (a + 1)) (s.readByte (a + 2)) (s.readByte (a + 3))

/-- `MemWrite(a, len(bs), bs)` (R8). -/
def State.writeMem (s : State) (a : Nat) (bs : List Byte) : State := { s with mem := s.mem.write a bs }

/-! ## Slots and their RAMs -/

/-- The slot a number names, if the configuration has it (10_state.md R28). -/
def slotIndex? (n : Nat) : Option (Fin Config.numSlots) :=
  if h : n < Config.numSlots then some ⟨n, h⟩ else none

/-- The slot `k`. -/
def State.slot (s : State) (k : Fin Config.numSlots) : Slot := s.slots[k]

/-- The state with slot `k` replaced, record and RAM. -/
def State.setSlot (s : State) (k : Fin Config.numSlots) (x : Slot) : State :=
  { s with slots := s.slots.set k x }

/-- `slot[k] <- {FULL = f, STYPE = t, SLEN = n}`; the RAM stays (10_state.md R28). -/
def State.setRecord (s : State) (k : Fin Config.numSlots) (f : Bool) (t n : Word) : State :=
  s.setSlot k { s.slot k with full := f, stype := t, slen := n }

/-- The cell `o` of `ram[k]`: a byte, or `none` for UNWRITTEN (10_state.md R29). -/
def State.ramCell (s : State) (k : Fin Config.numSlots) (o : Nat) : Option Byte :=
  (s.slot k).ram.lookup o

/-- `RamWrite(k, o, len(bs), bs)` (00_scope.md R8). -/
def State.writeRam (s : State) (k : Fin Config.numSlots) (o : Nat) (bs : List Byte) : State :=
  s.setSlot k { s.slot k with ram := (s.slot k).ram.write o bs }

/-! ## Draws -/

/-- `n` draws in a row. -/
def freeBytes (first n : Nat) : List Byte := (List.range n).map fun i => Config.freeByte (first + i)

/-- The state after `n` draws. -/
def State.drew (s : State) (n : Nat) : State := { s with draws := s.draws + n }

/-- A read of one RAM cell; an UNWRITTEN one returns a fresh draw (10_state.md R32). -/
def State.readCell (s : State) (k : Fin Config.numSlots) (o draw : Nat) : Byte :=
  (s.ramCell k o).getD (Config.freeByte draw)

/-- `RamRead(k, 0, n)`: cell `i` takes the draw `i` past the ones taken so far if it is UNWRITTEN (R8,
R32; log 2). The reader moves the count on with `drew`. -/
def State.readRam (s : State) (k : Fin Config.numSlots) (n : Nat) : List Byte :=
  (List.range n).map fun i => s.readCell k i (s.draws + i)

/-! ## The CRC registers -/

/-- `CRC_OUT <- v` (10_state.md R27). -/
def State.setCrcOut (s : State) (v : Word) : State := { s with crcOut := v }

/-- `CRC_RCVD <- v` (10_state.md R27). -/
def State.setCrcRcvd (s : State) (v : Word) : State := { s with crcRcvd := v }

/-! ## Completion -/

/-- The completion of a command, `raise E(r)`; `finish(r)` is `raise OK(r)` (60_exceptions.md R91). This
is the engine's one way to report anything: it has no traps (R95). -/
def State.complete (s : State) (l : Latch) (e : ErrorKind) (r : Word) : State :=
  { s with
    err := e.code
    result := r
    lastCmd := l.cmd
    latch := none
    busy := false
    done := true }

/-! ## Reset -/

/-- A slot after a soft reset: the record EMPTY, every cell as it was (70_reset_and_hazards.md R103). -/
def Slot.emptied (x : Slot) : Slot := { x with full := false, stype := 0, slen := 0 }

/-- Every register and slot record at its power-on value, no command in flight, RAM and `M` as they are
(R102, R103). What a run holds beside the engine (the host's program and readings, the platform, the
schedule and the draws taken) is no register and stays. -/
def State.resetEngine (s : State) : State :=
  { State.reset with
    slots := s.slots.map Slot.emptied
    mem := s.mem
    program := s.program
    reads := s.reads
    platform := s.platform
    schedule := s.schedule
    draws := s.draws }

/-- The bytes `M[a .. a + n)` become draws, within the address space and never `M[0]`, which the engine
never writes (R104, 20_memory.md R41; log 9). -/
def State.drawMem (s : State) (a n : Nat) : State :=
  let lo := max a 1
  let count := min (a + n) Config.memBytes - lo
  (s.writeMem lo (freeBytes s.draws count)).drew count

/-- The cells `ram[sa][0 .. n)` become draws, within the RAM, if the configuration has the slot (R104;
log 9). -/
def State.drawRam (s : State) (sa n : Nat) : State :=
  match slotIndex? sa with
  | none => s
  | some k =>
    let count := min n Config.slotBytes
    (s.writeRam k 0 (freeBytes s.draws count)).drew count

end Sys2Proof.Machine
end

