-- ==== Sys2Proof/Machine/Operands.lean ====
section
/-! DEFINITION. Operands: the latched registers (10_state.md R33), the tests of an operand range
(20_memory.md R41, R42), the slot operand (30_encoding.md R61), type validity (40_crc_engine.md R67,
R68), and which ranges and slots a command names (30_encoding.md R58). -/

namespace Sys2Proof.Machine

/-! ## The command in flight -/

/-- The rule of a command, applied to its latched operands (R33). Every path of a rule ends in a
completion (60_exceptions.md R90), so a rule is a function to the state it leaves. Without a latched
command no rule applies (log 10). -/
def withLatch (s : State) (rule : Latch → State) : Host.Outcome State Fault Refusal :=
  match s.latch with
  | some l => .next (rule l)
  | none => .fault .noCommandInFlight

/-- The rule of a command on the slot its operand names, after the slot range check: a slot the
configuration lacks raises `IllegalArgument(0)` with no other effect (R61). -/
def onSlot (s : State) (l : Latch) (n : Nat) (rule : Fin Config.numSlots → State) : State :=
  match slotIndex? n with
  | some k => rule k
  | none => s.complete l .illegalArgument 0

/-! ## Operand ranges of `M` -/

/-- The range `(a, n)` is null (R41). -/
def isNull (a n : Nat) : Bool := decide (a = 0) && decide (0 < n)

/-- The range `(a, n)` wraps (R42); the sum is computed on unbounded naturals (00_scope.md R6). -/
def wraps (a n : Nat) : Bool := decide (Config.memBytes < a + n)

/-- The address `x` lies in `[a, a + n)`. -/
def inRange (x a n : Nat) : Bool := decide (a ≤ x) && decide (x < a + n)

/-- The ranges `[a, a + n)` and `[b, b + m)` share an address. -/
def overlap (a n b m : Nat) : Bool :=
  decide (0 < n) && decide (0 < m) && decide (a < b + m) && decide (b < a + n)

/-- The input range of a command in `M`, as address and length (R58, 70_reset_and_hazards.md R107). -/
def inputRange (i : Instr) (l : Latch) : Option (Nat × Nat) :=
  match i with
  | .crc => some (l.srcAddr.toNat, l.srcLen.toNat)
  | .create _ => some (l.srcAddr.toNat, l.srcLen.toNat)
  | .deser _ => some (l.srcAddr.toNat, l.srcLen.toNat)
  | .nop => none
  | .adopt _ => none
  | .ser _ => none
  | .clear _ => none
  | .free _ => none
  | .swap _ _ => none

/-- The output range of a command in `M`, as address and length (R58, R107). -/
def outputRange (i : Instr) (l : Latch) : Option (Nat × Nat) :=
  match i with
  | .ser _ => some (l.dstAddr.toNat, l.dstCap.toNat)
  | .nop => none
  | .crc => none
  | .create _ => none
  | .adopt _ => none
  | .deser _ => none
  | .clear _ => none
  | .free _ => none
  | .swap _ _ => none

/-- The slot numbers a command names (R58). -/
def namedSlots (i : Instr) : List Nat :=
  match i with
  | .nop => []
  | .crc => []
  | .create sa => [sa]
  | .adopt sa => [sa]
  | .ser sa => [sa]
  | .deser sa => [sa]
  | .clear sa => [sa]
  | .free sa => [sa]
  | .swap sa sb => [sa, sb]

/-- The fault of a command whose operand range meets a region with no memory, if it meets one (R108;
log 8). A command has at most one operand range. -/
def platformHazard (s : State) (i : Instr) (l : Latch) : Option Fault :=
  match (inputRange i l).or (outputRange i l) with
  | none => none
  | some (a, n) =>
    match s.platform.find? fun r => overlap a n r.start r.size with
    | none => none
    | some r =>
      match r.kind with
      | .device => some .hazardDeviceMapped
      | .unbacked => some .hazardUnbacked

/-! ## Type codes -/

/-- A byte is a type letter (R67). -/
def isTypeLetter (b : Byte) : Bool :=
  (decide (0x41 ≤ b.toNat) && decide (b.toNat ≤ 0x5A))
    || (decide (0x61 ≤ b.toNat) && decide (b.toNat ≤ 0x7A))

/-- `type_is_valid(T)`: every byte of the type code is a letter (R68). -/
def typeIsValid (t : Word) : Bool := (toBE32 t).all isTypeLetter

end Sys2Proof.Machine
end

