-- ==== Sys2Proof/Machine/Crc.lean ====
section
/-! DEFINITION. The CRC engine (40_crc_engine.md): the CRC functions of R69 to R72, and the meanings of
`NOP` (R75) and `CRC` (R76). -/

namespace Sys2Proof.Machine

/-! ## The CRC function -/

/-- `CRC_POLY` (R69). -/
def crcPoly : Word := 0xEDB88320

/-- One reflected shift: the polynomial enters when the low bit leaves (R69, R70). -/
def crcShift (v : Word) : Word := if v[0] then crcPoly ^^^ (v >>> 1) else v >>> 1

/-- `n` reflected shifts. -/
def crcShifts : Nat → Word → Word
  | 0, v => v
  | n + 1, v => crcShifts n (crcShift v)

/-- `CRC_TABLE[n]`, a constant function held in ROM (R69, 10_state.md R37; log 17). -/
def crcTable (n : Byte) : Word := crcShifts 8 (n.setWidth 32)

/-- `crc_step(c, b)`: the table form of the per-byte step (R70; log 17). -/
def crcStep (c : Word) (b : Byte) : Word :=
  crcTable ((c ^^^ b.setWidth 32).extractLsb' 0 8) ^^^ (c >>> 8)

/-- `CRC32NC(s)`: seeded with all ones, not complemented at the end (R71). -/
def crc32nc (bs : List Byte) : Word := bs.foldl crcStep 0xFFFFFFFF

/-- `chunk_crc(T, d)` (R72). -/
def chunkCrc (t : Word) (d : List Byte) : Word := crc32nc (toBE32 t ++ d)

/-! ## The commands -/

/-- `NOP`: `finish(0)` (R75). -/
def execNop (s : State) : Host.Outcome State Fault Refusal :=
  withLatch s fun l => s.complete l .ok 0

/-- `CRC` on its latched operands (R76). -/
def crcRule (s : State) (l : Latch) : State :=
  let a := l.srcAddr.toNat
  let n := l.srcLen.toNat
  if isNull a n then s.complete l .nullArgument 0
  else if wraps a n then s.complete l .illegalArgument 0
  else (s.setCrcOut (chunkCrc l.typeCode (s.readMem a n))).complete l .ok 0

/-- `CRC` (R76). -/
def execCrc (s : State) : Host.Outcome State Fault Refusal :=
  withLatch s fun l => crcRule s l

end Sys2Proof.Machine
end

