-- ==== Sys2Proof/Machine/Codec.lean ====
section
/-! DEFINITION. The chunk framing codec (41_chunk_codec.md): the frame (R77) and the meanings of
`CREATE`, `ADOPT`, `SER`, `DESER`, `CLEAR`, `FREE` and `SWAP` (R81 to R87). The checks of each rule stand
in its pseudocode's order (60_exceptions.md R94). -/

namespace Sys2Proof.Machine

/-- `frame(L, T, d)` (R77). -/
def frame (len t : Word) (d : List Byte) : List Byte :=
  toBE32 len ++ toBE32 t ++ d ++ toBE32 (chunkCrc t d)

/-- The slot's RAM can hold `n` bytes (R79, 00_scope.md R5). -/
def fitsSlot (n : Nat) : Bool := decide (n ≤ Config.slotBytes)

/-- `CREATE` on slot `k` (R81). -/
def createRule (s : State) (l : Latch) (k : Fin Config.numSlots) : State :=
  let a := l.srcAddr.toNat
  let n := l.srcLen.toNat
  if (s.slot k).full then s.complete l .illegalArgument 0
  else if isNull a n then s.complete l .illegalArgument 0
  else if Config.maxChunkLen < n then s.complete l .illegalArgument 0
  else if !typeIsValid l.typeCode then s.complete l .illegalArgument 0
  else if wraps a n then s.complete l .illegalArgument 0
  else if !fitsSlot n then s.complete l .outOfMemory 0
  else ((s.writeRam k 0 (s.readMem a n)).setRecord k true l.typeCode l.srcLen).complete l .ok 0

/-- `CREATE sA` (R81). -/
def execCreate (sa : Nat) (s : State) : Host.Outcome State Fault Refusal :=
  withLatch s fun l => onSlot s l sa fun k => createRule s l k

/-- `ADOPT` on slot `k` (R82). -/
def adoptRule (s : State) (l : Latch) (k : Fin Config.numSlots) : State :=
  let n := l.srcLen.toNat
  if (s.slot k).full then s.complete l .illegalArgument 0
  else if Config.maxChunkLen < n then s.complete l .illegalArgument 0
  else if !typeIsValid l.typeCode then s.complete l .illegalArgument 0
  else if !fitsSlot n then s.complete l .illegalArgument 0
  else (s.setRecord k true l.typeCode l.srcLen).complete l .ok 0

/-- `ADOPT sA` (R82). -/
def execAdopt (sa : Nat) (s : State) : Host.Outcome State Fault Refusal :=
  withLatch s fun l => onSlot s l sa fun k => adoptRule s l k

/-- `SER` on slot `k` once every check has passed: the chunk's bytes are read once, framed and stored
(R83). -/
def serStore (s : State) (l : Latch) (k : Fin Config.numSlots) : State :=
  let len := (s.slot k).slen
  let t := (s.slot k).stype
  let d := s.readRam k len.toNat
  let written := (s.writeMem l.dstAddr.toNat (frame len t d)).drew len.toNat
  (written.setCrcOut (chunkCrc t d)).complete l .ok (BitVec.ofNat 32 (len.toNat + 12))

/-- `SER` on slot `k` (R83). -/
def serRule (s : State) (l : Latch) (k : Fin Config.numSlots) : State :=
  let a := l.dstAddr.toNat
  let cap := l.dstCap.toNat
  let need := (s.slot k).slen.toNat + 12
  if !(s.slot k).full then s.complete l .illegalArgument 0
  else if isNull a cap then s.complete l .nullArgument 0
  else if wraps a cap then s.complete l .illegalArgument 0
  else if cap < need then s.complete l .capacityExceeded (BitVec.ofNat 32 need)
  else serStore s l k

/-- `SER sA` (R83). -/
def execSer (sa : Nat) (s : State) : Host.Outcome State Fault Refusal :=
  withLatch s fun l => onSlot s l sa fun k => serRule s l k

/-- `DESER` on slot `k` once the frame of data length `len` is known to be there: the data is stored, the
CRC recomputed and compared with the frame's (R84). -/
def deserVerify (s : State) (l : Latch) (k : Fin Config.numSlots) (len : Word) : State :=
  let a := l.srcAddr.toNat
  let t := s.readWord (a + 4)
  let d := s.readMem (a + 8) len.toNat
  let received := s.readWord (a + 8 + len.toNat)
  let computed := chunkCrc t d
  let stored := ((s.writeRam k 0 d).setCrcOut computed).setCrcRcvd received
  if computed ≠ received then stored.complete l .checksumMismatch 0
  else (stored.setRecord k true t len).complete l .ok (BitVec.ofNat 32 (len.toNat + 12))

/-- `DESER` on slot `k`, for a value `validates` of `DESER_VALIDATES_TYPE` (R84). -/
def deserRule (validates : Bool) (s : State) (l : Latch) (k : Fin Config.numSlots) : State :=
  let a := l.srcAddr.toNat
  let n := l.srcLen.toNat
  let len := s.readWord a
  let need := len.toNat + 12
  if (s.slot k).full then s.complete l .illegalArgument 0
  else if isNull a n then s.complete l .nullArgument 0
  else if wraps a n then s.complete l .illegalArgument 0
  else if n < 4 then s.complete l .incompleteData 12
  else if Config.maxChunkLen < len.toNat then s.complete l .malformedData 0
  else if n < need then s.complete l .incompleteData (BitVec.ofNat 32 need)
  else if !typeIsValid (s.readWord (a + 4)) && validates then s.complete l .illegalArgument 0
  else if !fitsSlot len.toNat then s.complete l .outOfMemory 0
  else deserVerify s l k len

/-- `DESER sA` (R84), with the parameter of 00_scope.md R4. -/
def execDeser (sa : Nat) (s : State) : Host.Outcome State Fault Refusal :=
  withLatch s fun l => onSlot s l sa fun k => deserRule Config.deserValidatesType s l k

/-- `CLEAR` on slot `k`: the record becomes EMPTY, the RAM is not touched (R85). -/
def clearRule (s : State) (l : Latch) (k : Fin Config.numSlots) : State :=
  (s.setRecord k false 0 0).complete l .ok 0

/-- `CLEAR sA` (R85). -/
def execClear (sa : Nat) (s : State) : Host.Outcome State Fault Refusal :=
  withLatch s fun l => onSlot s l sa fun k => clearRule s l k

/-- The chunk's data zeroed if the slot holds a chunk (R86). -/
def zeroData (s : State) (k : Fin Config.numSlots) : State :=
  if (s.slot k).full then s.writeRam k 0 (List.replicate (s.slot k).slen.toNat 0) else s

/-- `FREE` on slot `k` (R86). -/
def freeRule (s : State) (l : Latch) (k : Fin Config.numSlots) : State :=
  ((zeroData s k).setRecord k false 0 0).complete l .ok 0

/-- `FREE sA` (R86). -/
def execFree (sa : Nat) (s : State) : Host.Outcome State Fault Refusal :=
  withLatch s fun l => onSlot s l sa fun k => freeRule s l k

/-- Two slots exchanged, records and whole RAMs, UNWRITTEN cells included (R87). -/
def State.swapSlots (s : State) (ka kb : Fin Config.numSlots) : State :=
  if ka = kb then s else (s.setSlot ka (s.slot kb)).setSlot kb (s.slot ka)

/-- `SWAP sA, sB`: `SA` then `SB` are checked (R87, 30_encoding.md R61). -/
def execSwap (sa sb : Nat) (s : State) : Host.Outcome State Fault Refusal :=
  withLatch s fun l => onSlot s l sa fun ka => onSlot s l sb fun kb => (s.swapSlots ka kb).complete l .ok 0

end Sys2Proof.Machine
end

