-- ==== Sys2Proof/Machine/Dispatch.lean ====
section
/-! DEFINITION. The meaning of each command: one arm per row of spec/opcode_table.json (30_encoding.md
R60). -/

namespace Sys2Proof.Machine

def exec (i : Instr) (s : State) : Host.Outcome State Fault Refusal :=
  match i with
  | .nop => Sys2Proof.Machine.execNop s
  | .crc => Sys2Proof.Machine.execCrc s
  | .create sa => Sys2Proof.Machine.execCreate sa s
  | .adopt sa => Sys2Proof.Machine.execAdopt sa s
  | .ser sa => Sys2Proof.Machine.execSer sa s
  | .deser sa => Sys2Proof.Machine.execDeser sa s
  | .clear sa => Sys2Proof.Machine.execClear sa s
  | .free sa => Sys2Proof.Machine.execFree sa s
  | .swap sa sb => Sys2Proof.Machine.execSwap sa sb s

end Sys2Proof.Machine
end

