-- ==== Sys2Proof/Machine/Registers.lean ====
section
/-! DEFINITION. The register block (10_state.md R16 to R30, R36): which register an offset names, what a
read returns, the issue of a command (R22), the soft reset with what an abandoned command leaves
(70_reset_and_hazards.md R103, R104), and what a write does. -/

namespace Sys2Proof.Machine

/-- The size of the register block (R16). -/
def registerBytes : Nat := 0x140

/-- The offset of a register (R16). -/
def Reg.offset : Reg → Nat
  | .id => 0x000
  | .version => 0x004
  | .params => 0x008
  | .ctrl => 0x00C
  | .status => 0x010
  | .cmd => 0x014
  | .err => 0x018
  | .lastCmd => 0x01C
  | .typeReg => 0x020
  | .srcAddr => 0x024
  | .srcLen => 0x028
  | .dstAddr => 0x02C
  | .dstCap => 0x030
  | .result => 0x034
  | .crcOut => 0x038
  | .crcRcvd => 0x03C
  | .slotState k => 0x040 + 0x10 * k.val
  | .slotType k => 0x044 + 0x10 * k.val
  | .slotLen k => 0x048 + 0x10 * k.val

/-- The slot register at word `j` (0 to 3) of slot `k`'s four words; word 3 is reserved (R16). -/
def slotRegAt (k : Fin 16) (j : Nat) : Option Reg :=
  match j with
  | 0 => some (.slotState k)
  | 1 => some (.slotType k)
  | 2 => some (.slotLen k)
  | _ => none

/-- The register at an aligned offset of the block; `none` at a reserved one (R16). -/
def regAt (off : Nat) : Option Reg :=
  match off with
  | 0x000 => some .id
  | 0x004 => some .version
  | 0x008 => some .params
  | 0x00C => some .ctrl
  | 0x010 => some .status
  | 0x014 => some .cmd
  | 0x018 => some .err
  | 0x01C => some .lastCmd
  | 0x020 => some .typeReg
  | 0x024 => some .srcAddr
  | 0x028 => some .srcLen
  | 0x02C => some .dstAddr
  | 0x030 => some .dstCap
  | 0x034 => some .result
  | 0x038 => some .crcOut
  | 0x03C => some .crcRcvd
  | _ =>
    if h : 0x040 ≤ off ∧ off < 0x140 then slotRegAt ⟨(off - 0x040) / 0x10, by omega⟩ (off % 0x10 / 4)
    else none

/-! ## Reading -/

/-- `PARAMS`: `NSLOTS` in 4:0, `DVT` in bit 8, `SLOTKB64` in 31:16 (R19), for a value `validates` of
`DESER_VALIDATES_TYPE`. -/
def paramsWord (validates : Bool) : Word :=
  BitVec.ofNat 32 Config.numSlots ||| bitAt validates 8
    ||| BitVec.ofNat 32 (Config.slotBytes / 0x10000 * 0x10000)

/-- A field of slot `k`; 0 for a slot the configuration lacks (R30). -/
def State.slotField (s : State) (k : Fin 16) (field : Slot → Word) : Word :=
  match slotIndex? k.val with
  | some j => field (s.slot j)
  | none => 0

/-- What a read of a register returns; write-only registers read 0 (R16 to R30, R36). -/
def State.readReg (s : State) : Reg → Word
  | .id => 0x504E4743
  | .version => 0x00000001
  | .params => paramsWord Config.deserValidatesType
  | .ctrl => s.ctrlWord
  | .status => s.statusWord
  | .cmd => 0
  | .err => s.errWord
  | .lastCmd => s.lastCmd
  | .typeReg => s.typeReg
  | .srcAddr => s.srcAddr
  | .srcLen => s.srcLen
  | .dstAddr => s.dstAddr
  | .dstCap => s.dstCap
  | .result => s.result
  | .crcOut => s.crcOut
  | .crcRcvd => s.crcRcvd
  | .slotState k => s.slotField k fun x => bitAt x.full 0
  | .slotType k => s.slotField k fun x => x.stype
  | .slotLen k => s.slotField k fun x => x.slen

/-! ## Issue -/

/-- The command word with the operand registers as they stand (R22, R33). -/
def State.latched (s : State) (w : Word) : Latch :=
  ⟨w, s.typeReg, s.srcAddr, s.srcLen, s.dstAddr, s.dstCap⟩

/-- `BUSY <- 1`, `DONE <- 0` and the command latched, with `d` host accesses before the engine's step. -/
def State.issueAfter (s : State) (w : Word) (d : Nat) : State :=
  { s with latch := some (s.latched w), busy := true, done := false, delay := d }

/-- An accepted issue: the delay is the next one of the schedule, or free (R112; log 1). -/
def State.issue (s : State) (w : Word) : State :=
  match s.schedule with
  | d :: rest => { s with schedule := rest }.issueAfter w d
  | [] => (s.drew 1).issueAfter w (Config.freeDelay s.draws)

/-- A write of `w` to `CMD`: dropped with `OVERRUN` while busy, else issued (R22). -/
def State.writeCmd (s : State) (w : Word) : State :=
  if s.busy then { s with overrun := true } else s.issue w

/-! ## Soft reset -/

/-- What an abandoned command leaves: every location its rule could have written is a draw (R104; log
9). An ill-formed word writes nothing (30_encoding.md R59). -/
def State.abandon (s : State) (l : Latch) : State :=
  match decode l.cmd with
  | .error _ => s
  | .ok i =>
    match i with
    | .nop => s
    | .crc => s
    | .create sa => s.drawRam sa l.srcLen.toNat
    | .adopt _ => s
    | .ser _ => s.drawMem l.dstAddr.toNat l.dstCap.toNat
    | .deser sa => s.drawRam sa l.srcLen.toNat
    | .clear _ => s
    | .free sa => s.drawRam sa ((slotIndex? sa).elim 0 fun k => (s.slot k).slen.toNat)
    | .swap sa sb =>
      if sa = sb then s.drawRam sa Config.slotBytes
      else (s.drawRam sa Config.slotBytes).drawRam sb Config.slotBytes

/-- The soft reset (R103). It abandons a command in flight wherever the command's operand range lies: a
range without memory (R108) is a hazard only at the engine step, and the command has none (log 18). -/
def State.softReset (s : State) : State :=
  match s.latch with
  | none => s.resetEngine
  | some l => (s.abandon l).resetEngine

/-! ## Writing -/

/-- A write of `v` to `CTRL`: bit 31 performs the soft reset and bit 0 is then ignored (R20). -/
def State.writeCtrl (s : State) (v : Word) : State :=
  if v[31] then s.softReset else { s with irqEn := v[0] }

/-- A write of `v` to a register; one to a read-only register is ignored (R36). -/
def State.writeReg (s : State) (v : Word) : Reg → State
  | .id => s
  | .version => s
  | .params => s
  | .ctrl => s.writeCtrl v
  | .status => s.clearStatus v
  | .cmd => s.writeCmd v
  | .err => s
  | .lastCmd => s
  | .typeReg => { s with typeReg := v }
  | .srcAddr => { s with srcAddr := v }
  | .srcLen => { s with srcLen := v }
  | .dstAddr => { s with dstAddr := v }
  | .dstCap => { s with dstCap := v }
  | .result => s
  | .crcOut => s
  | .crcRcvd => s
  | .slotState _ => s
  | .slotType _ => s
  | .slotLen _ => s

end Sys2Proof.Machine
end

