-- ==== Sys2Proof/Machine/HostPort.lean ====
section
/-! DEFINITION. The host's accesses: the map of the device window (20_memory.md R40), register and
aperture accesses (R43, R44), accesses of `M`, the hazards of an access that races the in-flight command
(70_reset_and_hazards.md R107), and host statements as accesses (30_encoding.md R63, R64). -/

namespace Sys2Proof.Machine

/-! ## The device window -/

/-- What stands at an offset of the window (R40). -/
inductive Place where
  /-- The register block. -/
  | register (off : Nat)
  /-- Reserved: reads 0, writes ignored, no error. -/
  | reserved
  /-- Offset `o` of the aperture of slot `k`, 0 to 15. -/
  | aperture (k o : Nat)
  /-- Past the window. -/
  | outside
  deriving DecidableEq, Repr

/-- The first aperture's offset (R40). -/
def apertureStart : Nat := 0x01000000

/-- The distance from one aperture to the next (R40). -/
def apertureStride : Nat := 0x00400000

/-- The place an offset names (R40). An access belongs to the place of its first byte (log 14). -/
def placeOf (off : Nat) : Place :=
  if off < registerBytes then .register off
  else if off < apertureStart then .reserved
  else if off < Config.windowBytes then
    .aperture ((off - apertureStart) / apertureStride) ((off - apertureStart) % apertureStride)
  else .outside

/-- The device offset a host-bus address names, if it lies in the window at `BASE` (R40; log 6). -/
def busOffset (addr : Nat) : Option Nat :=
  if Config.base ≤ addr ∧ addr < Config.base + Config.windowBytes then some (addr - Config.base) else none

/-- A register access is well formed: 32 bits wide at a multiple of 4 (R44). -/
def registerAccessOk (off : Nat) (w : Width) : Bool := decide (w = .w32) && decide (off % 4 = 0)

/-- The RAM cell an aperture access reaches: byte wide, a slot the configuration has, an offset its RAM
backs (R43). -/
def apertureCell (k o : Nat) (w : Width) : Option (Fin Config.numSlots) :=
  if w = .w8 ∧ o < Config.slotBytes then slotIndex? k else none

/-- The host has read `v` by the access `acc` (30_encoding.md R65). -/
def State.record (s : State) (acc : Access) (v : Word) : State :=
  { s with reads := s.reads ++ [⟨acc, v⟩] }

/-- A read of the register block: ill-formed ones return 0 and set `ACCESS_ERR` (R44), reserved offsets
read 0 (10_state.md R36). -/
def State.readRegister (s : State) (off : Nat) (w : Width) : State × Word :=
  if registerAccessOk off w then (s, (regAt off).elim 0 s.readReg) else (s.flagAccessErr, 0)

/-- A write of the register block: ill-formed ones are dropped and set `ACCESS_ERR` (R44), reserved
offsets ignore it (10_state.md R36). -/
def State.writeRegister (s : State) (off : Nat) (w : Width) (v : Word) : State :=
  if registerAccessOk off w then (regAt off).elim s (s.writeReg v) else s.flagAccessErr

/-- A read through an aperture (R43); an UNWRITTEN cell returns a draw (10_state.md R32). -/
def State.readAperture (s : State) (k o : Nat) (w : Width) : State × Word :=
  match apertureCell k o w with
  | none => (s.flagAccessErr, 0)
  | some j => (s.drew 1, (s.readCell j o s.draws).setWidth 32)

/-- A write through an aperture: refused with `ACCESS_ERR` if it reaches no cell or the slot is FULL
(R43). -/
def State.writeAperture (s : State) (k o : Nat) (w : Width) (v : Word) : State :=
  match apertureCell k o w with
  | none => s.flagAccessErr
  | some j => if (s.slot j).full then s.flagAccessErr else s.writeRam j o [v.setWidth 8]

/-! ## Hazards -/

/-- The command in flight, if the latched word is one. -/
def State.inFlight (s : State) : Option (Instr × Latch) :=
  match s.latch with
  | none => none
  | some l =>
    match decode l.cmd with
    | .error _ => none
    | .ok i => some (i, l)

/-- The address `x` lies in a command's range, if it has one. -/
def rangeHas (r : Option (Nat × Nat)) (x : Nat) : Bool := r.elim false fun p => inRange x p.1 p.2

/-- The access touches the aperture of a slot the in-flight command names (R107 (c); log 15). -/
def State.apertureHazard (s : State) (k : Nat) : Bool :=
  s.inFlight.elim false fun c => decide (k ∈ namedSlots c.1)

/-- `M[x]` lies in the in-flight command's input range (R107 (a)). -/
def State.inputHazard (s : State) (x : Nat) : Bool :=
  s.inFlight.elim false fun c => rangeHas (inputRange c.1 c.2) x

/-- `M[x]` lies in the in-flight command's output range (R107 (b)). -/
def State.outputHazard (s : State) (x : Nat) : Bool :=
  s.inFlight.elim false fun c => rangeHas (outputRange c.1 c.2) x

/-- The platform gives `M[x]` memory (log 8). -/
def State.hasMemory (s : State) (x : Nat) : Bool := !s.platform.any fun r => inRange x r.start r.size

/-! ## One host access -/

/-- The host's read of the device window. -/
def hostRead (off : Nat) (w : Width) (s : State) : Host.Outcome State Fault Refusal :=
  match placeOf off with
  | .register o =>
    let (t, v) := s.readRegister o w
    .next (t.record (.read off w) v)
  | .reserved => .next (s.record (.read off w) 0)
  | .aperture k o =>
    if s.apertureHazard k then .fault .hazardAperture
    else
      let (t, v) := s.readAperture k o w
      .next (t.record (.read off w) v)
  | .outside => .fault .outsideWindow

/-- The host's write of the device window. -/
def hostWrite (off : Nat) (w : Width) (v : Word) (s : State) : Host.Outcome State Fault Refusal :=
  match placeOf off with
  | .register o => .next (s.writeRegister o w v)
  | .reserved => .next s
  | .aperture k o =>
    if s.apertureHazard k then .fault .hazardAperture else .next (s.writeAperture k o w v)
  | .outside => .fault .outsideWindow

/-- The host's read of `M[a]`. -/
def hostMemRead (a : Nat) (s : State) : Host.Outcome State Fault Refusal :=
  if Config.memBytes ≤ a then .fault .outsideMemory
  else if s.outputHazard a then .fault .hazardOutputAccess
  else if !s.hasMemory a then .fault .hostOutsidePlatformMemory
  else .next (s.record (.memRead a) ((s.readByte a).setWidth 32))

/-- The host's write of `M[a]`. -/
def hostMemWrite (a : Nat) (b : Byte) (s : State) : Host.Outcome State Fault Refusal :=
  if Config.memBytes ≤ a then .fault .outsideMemory
  else if s.inputHazard a then .fault .hazardInputWrite
  else if s.outputHazard a then .fault .hazardOutputAccess
  else if !s.hasMemory a then .fault .hostOutsidePlatformMemory
  else .next (s.writeMem a [b])

/-- One read of `STATUS` in a `wait` loop, which stands before the rest of the program again while bit 0
reads 1 (30_encoding.md R64). -/
def hostPoll (s : State) : Host.Outcome State Fault Refusal :=
  let t := s.record .poll s.statusWord
  .next (if s.statusWord[0] then { t with program := .poll :: t.program } else t)

/-- One host access, already taken off the program. -/
def hostAccess (acc : Access) (s : State) : Host.Outcome State Fault Refusal :=
  match acc with
  | .read off w => hostRead off w s
  | .write off w v => hostWrite off w v s
  | .memRead a => hostMemRead a s
  | .memWrite a b => hostMemWrite a b s
  | .poll => hostPoll s

/-! ## Statements -/

/-- The register an operand name stands for (R64). -/
def OperandReg.reg : OperandReg → Reg
  | .typeReg => .typeReg
  | .srcAddr => .srcAddr
  | .srcLen => .srcLen
  | .dstAddr => .dstAddr
  | .dstCap => .dstCap

/-- `wr NAME, imm32` as an access (R63). -/
def wrAccess (r : Reg) (v : Word) : Access := .write r.offset .w32 v

/-- The device offset of cell `o` in the aperture of slot `k` (R40, R43). For `o` at or past the stride it
lies in a later slot's aperture, or past the window (log 19). -/
def apertureOffset (k o : Nat) : Nat := apertureStart + k * apertureStride + o

/-- The host accesses of a statement, in order (R63, R64). A statement over several bytes is one access a
byte (log 12). That a byte of `ap.wb` or `ap.rb` past slot `k`'s aperture is an access of the slot whose
aperture its device offset lies in, and not `ACCESS_ERR` for slot `k` (R43, U10), is the model's choice
(log 19). -/
def Stmt.accesses : Stmt → List Access
  | .wr r v => [wrAccess r v]
  | .rd r => [.read r.offset .w32]
  | .memWb a bs => bs.mapIdx fun i b => .memWrite (a + i) b
  | .memRb a n => (List.range n).map fun i => .memRead (a + i)
  | .apWb k off bs => bs.mapIdx fun i b => .write (apertureOffset k off + i) .w8 (b.setWidth 32)
  | .apRb k off n => (List.range n).map fun i => .read (apertureOffset k off + i) .w8
  | .cmd i => [wrAccess .cmd (encode i)]
  | .wait => [.poll]
  | .ack => [wrAccess .status 0x00000002]
  | .reset => [wrAccess .ctrl 0x80000000]
  | .set rs => rs.map fun p => wrAccess p.1.reg p.2

/-- A host program, a finite list of statements (R65), placed for the host to perform. -/
def State.withProgram (s : State) (p : List Stmt) : State := { s with program := p.flatMap Stmt.accesses }

/-- The run is over: the host has performed its last statement and no command is in flight
(70_reset_and_hazards.md R113). -/
def State.ended (s : State) : Bool := s.program.isEmpty && s.latch.isNone

/-- The values a run's end state lists (R65, R113): what the host read, the polling reads of `wait` left
out, whose number is not fixed (R112; log 13). -/
def State.valuesRead (s : State) : List Word :=
  (s.reads.filter fun r => decide (r.access ≠ .poll)).map Reading.value

end Sys2Proof.Machine
end

