-- ==== Sys2Proof/Machine/Engine.lean ====
section
/-! DEFINITION. The two agents' turns: the engine step (60_exceptions.md R90), the host's next access
(20_memory.md R39), and which of them moves (R51, 70_reset_and_hazards.md R112). -/

namespace Sys2Proof.Machine

/-- The engine step with a command latched: decode (an ill-formed word completes with
`IllegalCommand(0)`, 30_encoding.md R59), the hazard of a range that is not memory (R108; log 8), then
the command's rule (R90). -/
def engineStep (l : Latch) (s : State) : Host.Outcome State Fault Refusal :=
  match decode l.cmd with
  | .error _ => .next (s.complete l .illegalCommand 0)
  | .ok i =>
    match platformHazard s i l with
    | some f => .fault f
    | none => exec i s

/-- The host's remaining program replaced. -/
def State.setProgram (s : State) (p : List Access) : State := { s with program := p }

/-- The host's turn: its next access in program order; with none left the state stays as it is (R113). -/
def hostTurn (s : State) : Host.Outcome State Fault Refusal :=
  match s.program with
  | [] => .next s
  | acc :: rest => hostAccess acc (s.setProgram rest)

/-- One more host access has come before the engine's step (R112; log 1). -/
def State.countAccess (s : State) : State := { s with delay := s.delay - 1 }

/-- With a command in flight the engine moves when its delay has run out, or when the host has nothing
left to do; before that the host moves (R51, R112; log 1). -/
def inFlightTurn (l : Latch) (s : State) : Host.Outcome State Fault Refusal :=
  if s.program.isEmpty || decide (s.delay = 0) then engineStep l s else hostTurn s.countAccess

/-- One turn of the machine. -/
def turn (s : State) : Host.Outcome State Fault Refusal :=
  match s.latch with
  | none => hostTurn s
  | some l => inFlightTurn l s

/-- The word `w` issued as a `CMD` write would issue it, with the engine to move next (R22; log 11). -/
def State.withCommand (s : State) (w : Nat) : State := s.issueAfter (BitVec.ofNat 32 w) 0

end Sys2Proof.Machine
end

