-- ==== Sys2Proof/Machine/Step.lean ====
section
/-! DEFINITION. One step of the machine, and the placing of a command word where the next step takes
it. -/

namespace Sys2Proof.Machine

/-- One step: one turn of the agent that moves (20_memory.md R51). -/
def step (s : State) : Host.Outcome State Fault Refusal := turn s

/-- The state with the command word `w` where `step` takes its next command from: the latch, as a `CMD`
write leaves it (10_state.md R22), with the engine to move next. A command is one 32-bit word (R56). -/
def State.withFetchWord (s : State) (_nbits w : Nat) : State := s.withCommand w

end Sys2Proof.Machine
end

