-- ==== Sys2Proof/Safety.lean ====
section
/-! DEFINITION. The terms the claims use: what two states agree on, what a completion leaves, and the
invariant of a safe run (10_state.md R31, R34; 60_exceptions.md R92, R97). -/

namespace Sys2Proof.Machine

/-! ## What two states agree on -/

/-- Slot `k` has the same record in both states. -/
def SameRecord (s t : State) (k : Fin Config.numSlots) : Prop :=
  (t.slot k).full = (s.slot k).full ∧ (t.slot k).stype = (s.slot k).stype
    ∧ (t.slot k).slen = (s.slot k).slen

/-- Every cell of `ram[k]` is the same in both states, UNWRITTEN ones included. -/
def SameRam (s t : State) (k : Fin Config.numSlots) : Prop := ∀ o, t.ramCell k o = s.ramCell k o

/-- Slot `k`, record and RAM, is the same in both states. -/
def SameSlot (s t : State) (k : Fin Config.numSlots) : Prop := SameRecord s t k ∧ SameRam s t k

/-- Every slot is the same in both states. -/
def SameSlots (s t : State) : Prop := ∀ k, SameSlot s t k

/-- Every byte of `M` is the same in both states. -/
def SameMem (s t : State) : Prop := ∀ a, t.readByte a = s.readByte a

/-- `CRC_OUT` and `CRC_RCVD` are the same in both states. -/
def SameCrc (s t : State) : Prop := t.crcOut = s.crcOut ∧ t.crcRcvd = s.crcRcvd

/-- The operand registers are the same in both states (10_state.md R25). -/
def SameOperands (s t : State) : Prop :=
  t.typeReg = s.typeReg ∧ t.srcAddr = s.srcAddr ∧ t.srcLen = s.srcLen ∧ t.dstAddr = s.dstAddr
    ∧ t.dstCap = s.dstCap

/-- What the last completion wrote is the same in both states (10_state.md R22). -/
def SameCompletion (s t : State) : Prop :=
  t.err = s.err ∧ t.result = s.result ∧ t.lastCmd = s.lastCmd

/-- `CTRL`, `OVERRUN`, `ACCESS_ERR` and the operand registers, which no completion changes
(60_exceptions.md R91), and what stands beside the engine: the host's program and readings, the
platform, the schedule. -/
def SameHostSide (s t : State) : Prop :=
  t.irqEn = s.irqEn ∧ t.overrun = s.overrun ∧ t.accessErr = s.accessErr ∧ SameOperands s t
    ∧ t.program = s.program ∧ t.reads = s.reads ∧ t.platform = s.platform ∧ t.schedule = s.schedule

/-- The completion of the command `l` with the error kind `e` and the result `r` (60_exceptions.md
R91). -/
def Completed (s t : State) (l : Latch) (e : ErrorKind) (r : Word) : Prop :=
  t.err = e.code ∧ t.result = r ∧ t.lastCmd = l.cmd ∧ t.latch = none ∧ t.busy = false ∧ t.done = true
    ∧ SameHostSide s t

/-- A completion with no other effect. -/
def OnlyCompleted (s t : State) (l : Latch) (e : ErrorKind) (r : Word) : Prop :=
  Completed s t l e r ∧ SameSlots s t ∧ SameMem s t ∧ SameCrc s t

/-- `M` holds the byte list `bs` from address `a` on. -/
def State.holds (s : State) (a : Nat) (bs : List Byte) : Prop :=
  ∀ i, (h : i < bs.length) → s.readByte (a + i) = bs[i]

/-- The first cells of `ram[k]` hold the byte list `bs`. -/
def State.ramHolds (s : State) (k : Fin Config.numSlots) (bs : List Byte) : Prop :=
  ∀ i, (h : i < bs.length) → s.ramCell k i = some bs[i]

/-- The engine moves next: the host has nothing left to do, or its accesses before the engine's step are
over (70_reset_and_hazards.md R112). -/
def State.engineMoves (s : State) : Prop := s.program = [] ∨ s.delay = 0

/-! ## The invariant -/

/-- A slot's record and RAM as 10_state.md R31 (a), (b) and R29 leave them. -/
structure Slot.Legal (x : Slot) : Prop where
  /-- An EMPTY slot has the EMPTY record (R31 (a)). -/
  empty : x.full = false → x.stype = 0 ∧ x.slen = 0
  /-- A FULL slot's length is within both bounds (R31 (b)). -/
  bounded : x.full = true → x.slen.toNat ≤ Config.maxChunkLen ∧ x.slen.toNat ≤ Config.slotBytes
  /-- The RAM is in canonical form, within its size (R29). -/
  ram : x.ram.ramWf

/-- What holds in every state a run reaches. -/
structure State.Inv (s : State) : Prop where
  /-- `BUSY = 1` iff a command is latched (R34). -/
  busy_iff_latched : s.busy = s.latch.isSome
  /-- `DONE` is 0 while a command is in flight (60_exceptions.md R97). -/
  done_low_in_flight : s.busy = true → s.done = false
  /-- `ERR` holds one of the codes 0 to 8 (60_exceptions.md R92). -/
  err_code : s.err.toNat ≤ 8
  /-- Every slot is legal. -/
  slots : ∀ k, (s.slot k).Legal
  /-- `M` is in canonical form, within its size (20_memory.md R38). -/
  mem : s.mem.wf

/-- Every FULL slot's type is valid: R31 (c) when `DESER_VALIDATES_TYPE` is true. -/
def State.TypesValid (s : State) : Prop := ∀ k, (s.slot k).full = true → typeIsValid (s.slot k).stype = true

end Sys2Proof.Machine
end

