-- ==== Sys2Proof/Certificates/Slice0/Obligations.lean ====
section
/-! DEFINITION. The statements for the provers. Each docstring names the rule of spec/ it formalises; a
statement that rests on a choice of the model names the log entry. -/

open Sys2Proof Sys2Proof.Machine

/-! ## Encoding -/

/-- R56, R60: decoding the word of a well-formed command gives the command back, whatever its operands. -/
def Obligations.WellFormedCommandsRoundTrip : Prop :=
  ∀ i : Instr, i.wf = true → decode (encode i) = .ok i

/-- R57, R60: a word that decodes is the word of the command it decodes to, so no bit is dropped. -/
def Obligations.DecodedCommandsEncodeBack : Prop :=
  ∀ (w : Word) (i : Instr), decode w = .ok i → i.wf = true ∧ encode i = w

/-- R60: a word selects the row whose match it has under the row's mask, at most one row matches, and a
word no row matches completes with `IllegalCommand`. -/
def Obligations.MaskAndMatchSelectTheRow : Prop :=
  (∀ w : Word, ∀ r ∈ opcodeRows, ∀ r' ∈ opcodeRows,
      r.selects w = true → r'.selects w = true → r = r')
    ∧ (∀ (w : Word) (i : Instr), decode w = .ok i →
        ∃ r ∈ opcodeRows, r.mnemonic = i.mnemonic ∧ r.selects w = true)
    ∧ (∀ w : Word, ∀ r ∈ opcodeRows, r.selects w = true →
        ∃ i, decode w = .ok i ∧ i.mnemonic = r.mnemonic)
    ∧ (∀ (s : State) (l : Latch), s.latch = some l → s.engineMoves →
        (∀ r ∈ opcodeRows, r.selects l.cmd = false) →
        ∃ t, step s = .next t ∧ OnlyCompleted s t l .illegalCommand 0)

/-- R60's word patterns and examples, one word per row, and the reserved words of 95 L2.3. -/
def Obligations.OpcodeMapWordsDecode : Prop :=
  decode 0x00000000 = .ok .nop ∧ decode 0x00000001 = .ok .crc ∧ decode 0x00000102 = .ok (.create 1)
    ∧ decode 0x00000103 = .ok (.adopt 1) ∧ decode 0x00000304 = .ok (.ser 3)
    ∧ decode 0x00000105 = .ok (.deser 1) ∧ decode 0x00000406 = .ok (.clear 4)
    ∧ decode 0x00000F07 = .ok (.free 15) ∧ decode 0x00002008 = .ok (.swap 0 2)
    ∧ decode 0x00000100 = .error .unusedSlotField ∧ decode 0x00001002 = .error .unusedSlotField
    ∧ decode 0x00000009 = .error .reservedOpcode ∧ decode 0x00010000 = .error .reservedBits

/-- R59: a word with a nonzero `RSV`, an opcode above `0x08`, or a nonzero slot field its opcode does not
use completes with `IllegalCommand(0)` at the engine step and has no other effect; every other word
decodes, and never completes with `IllegalCommand`. -/
def Obligations.IllFormedWordsCompleteWithIllegalCommand : Prop :=
  let illFormed := fun w : Word =>
    w.extractLsb' 16 16 ≠ 0
      ∨ 8 < (w.extractLsb' 0 8).toNat
      ∨ ((w.extractLsb' 0 8).toNat ≤ 1 ∧ (w.extractLsb' 8 4 ≠ 0 ∨ w.extractLsb' 12 4 ≠ 0))
      ∨ ((w.extractLsb' 0 8).toNat ≤ 7 ∧ w.extractLsb' 12 4 ≠ 0)
  (∀ (s : State) (l : Latch), s.latch = some l → s.engineMoves → illFormed l.cmd →
      ∃ t, step s = .next t ∧ OnlyCompleted s t l .illegalCommand 0)
    ∧ (∀ w : Word, ¬ illFormed w → ∃ i, decode w = .ok i)
    ∧ ∀ (s t : State) (l : Latch), s.latch = some l → s.engineMoves → ¬ illFormed l.cmd →
        step s = .next t → t.err ≠ ErrorKind.illegalCommand.code

/-! ## The step -/

/-- R90, R112: when the engine moves and the latched word decodes to `i`, and no operand range of it meets
a region without memory (R108, log 8), the step is `exec i`. When the engine moves is the model's
schedule (log 1). -/
def Obligations.StepRunsTheDecodedCommand : Prop :=
  ∀ (s : State) (l : Latch) (i : Instr), s.latch = some l → s.engineMoves → decode l.cmd = .ok i →
    platformHazard s i l = none → step s = exec i s

/-- R39, R51, R112: the host performs its accesses in program order, with no command in flight or before
the engine's step. The count of accesses before the engine's step is the model's (log 1). When the host has
none left and no command is in flight the run has ended (R113); that a step then leaves the state as it is
is the model's choice (log 11). -/
def Obligations.HostMovesUntilTheDelayRunsOut : Prop :=
  (∀ (s : State) (acc : Access) (rest : List Access), s.latch = none → s.program = acc :: rest →
      step s = hostAccess acc (s.setProgram rest))
    ∧ (∀ (s : State) (l : Latch) (acc : Access) (rest : List Access), s.latch = some l →
        s.program = acc :: rest → s.delay ≠ 0 → step s = hostAccess acc (s.countAccess.setProgram rest))
    ∧ (∀ s : State, s.latch = none → s.program = [] → step s = .next s)

/-- R90, R91: every command in flight ends in one step in exactly one completion, which changes neither
`OVERRUN`, `ACCESS_ERR`, `CTRL` nor an operand register, whatever the state and the operands. -/
def Obligations.CommandsInFlightComplete : Prop :=
  ∀ (i : Instr) (s : State) (l : Latch), s.latch = some l →
    ∃ t e r, exec i s = .next t ∧ Completed s t l e r

/-- R61: a command that names a slot the configuration lacks raises `IllegalArgument(0)` with no other
effect. -/
def Obligations.MissingSlotsRaiseIllegalArgument : Prop :=
  ∀ (i : Instr) (s : State) (l : Latch), s.latch = some l →
    (∃ n ∈ namedSlots i, Config.numSlots ≤ n) →
    ∃ t, exec i s = .next t ∧ OnlyCompleted s t l .illegalArgument 0

/-! ## The commands -/

/-- R75: `NOP`, the word `0x00000000` and no other with opcode `0x00`, completes with `OK` and result 0 and
changes nothing else; its completion raises the interrupt if it is enabled. -/
def Obligations.NopOnlyCompletes : Prop :=
  (∀ (s : State) (l : Latch), s.latch = some l →
      ∃ t, exec .nop s = .next t ∧ OnlyCompleted s t l .ok 0 ∧ t.irq = s.irqEn)
    ∧ decode 0x00000000 = .ok .nop
    ∧ ∀ w : Word, w.extractLsb' 0 8 = 0 → w ≠ 0 → ∃ e, decode w = .error e

/-- R76: `CRC` of a range that is neither null nor wrapping stores the chunk CRC of the latched type and
the range's bytes, and changes nothing else but the completion. -/
def Obligations.CrcStoresTheChunkCrc : Prop :=
  ∀ (s : State) (l : Latch) (d : List Byte), s.latch = some l → d.length = l.srcLen.toNat →
    (l.srcLen = 0 ∨ l.srcAddr ≠ 0) → l.srcAddr.toNat + l.srcLen.toNat ≤ 2 ^ 32 →
    s.holds l.srcAddr.toNat d →
    ∃ t, exec .crc s = .next t ∧ Completed s t l .ok 0 ∧ t.crcOut = chunkCrc l.typeCode d
      ∧ t.crcRcvd = s.crcRcvd ∧ SameSlots s t ∧ SameMem s t

/-- R76: `CRC` raises `NullArgument` for a null range, then `IllegalArgument` for a wrapping one, with no
other effect. -/
def Obligations.CrcRejectsNullThenWrappingRanges : Prop :=
  ∀ (s : State) (l : Latch), s.latch = some l →
    (l.srcLen ≠ 0 → l.srcAddr = 0 →
      ∃ t, exec .crc s = .next t ∧ OnlyCompleted s t l .nullArgument 0)
    ∧ (l.srcAddr ≠ 0 → 2 ^ 32 < l.srcAddr.toNat + l.srcLen.toNat →
      ∃ t, exec .crc s = .next t ∧ OnlyCompleted s t l .illegalArgument 0)

/-- R81: `CREATE` that passes every check copies the range into the slot's RAM and makes the slot FULL;
cells past the length, the other slots, `M` and the CRC registers stay. -/
def Obligations.CreateCopiesTheRangeIntoTheSlot : Prop :=
  ∀ (s : State) (l : Latch) (k : Fin Config.numSlots), s.latch = some l → (s.slot k).full = false →
    (l.srcLen = 0 ∨ l.srcAddr ≠ 0) → typeIsValid l.typeCode = true →
    l.srcAddr.toNat + l.srcLen.toNat ≤ 2 ^ 32 → l.srcLen.toNat ≤ Config.slotBytes →
    ∃ t, exec (.create k.val) s = .next t ∧ Completed s t l .ok 0
      ∧ (t.slot k).full = true ∧ (t.slot k).stype = l.typeCode ∧ (t.slot k).slen = l.srcLen
      ∧ (∀ o, o < l.srcLen.toNat → t.ramCell k o = some (s.readByte (l.srcAddr.toNat + o)))
      ∧ (∀ o, l.srcLen.toNat ≤ o → t.ramCell k o = s.ramCell k o)
      ∧ (∀ j, j ≠ k → SameSlot s t j) ∧ SameMem s t ∧ SameCrc s t

/-- R81: `CREATE` raises `IllegalArgument` for a FULL slot, a null range with data, a length above
`MAX_CHUNK_LEN`, an invalid type or a wrapping range; past those, `OutOfMemory` for a length above
`SLOT_BYTES`; with no other effect. -/
def Obligations.CreateRejectsInOrder : Prop :=
  ∀ (s : State) (l : Latch) (k : Fin Config.numSlots), s.latch = some l →
    (((s.slot k).full = true ∨ (l.srcLen ≠ 0 ∧ l.srcAddr = 0) ∨ Config.maxChunkLen < l.srcLen.toNat
        ∨ typeIsValid l.typeCode = false ∨ 2 ^ 32 < l.srcAddr.toNat + l.srcLen.toNat) →
      ∃ t, exec (.create k.val) s = .next t ∧ OnlyCompleted s t l .illegalArgument 0)
    ∧ ((s.slot k).full = false → (l.srcLen = 0 ∨ l.srcAddr ≠ 0) →
        l.srcLen.toNat ≤ Config.maxChunkLen → typeIsValid l.typeCode = true →
        l.srcAddr.toNat + l.srcLen.toNat ≤ 2 ^ 32 → Config.slotBytes < l.srcLen.toNat →
      ∃ t, exec (.create k.val) s = .next t ∧ OnlyCompleted s t l .outOfMemory 0)

/-- R82: `ADOPT` that passes every check makes the slot FULL over the cells its RAM already holds; no cell
and no byte of `M` changes. -/
def Obligations.AdoptFillsTheSlotInPlace : Prop :=
  ∀ (s : State) (l : Latch) (k : Fin Config.numSlots), s.latch = some l → (s.slot k).full = false →
    typeIsValid l.typeCode = true → l.srcLen.toNat ≤ Config.slotBytes →
    ∃ t, exec (.adopt k.val) s = .next t ∧ Completed s t l .ok 0
      ∧ (t.slot k).full = true ∧ (t.slot k).stype = l.typeCode ∧ (t.slot k).slen = l.srcLen
      ∧ SameRam s t k ∧ (∀ j, j ≠ k → SameSlot s t j) ∧ SameMem s t ∧ SameCrc s t

/-- R82: `ADOPT` raises only `IllegalArgument`: for a FULL slot, a length above `MAX_CHUNK_LEN`, an
invalid type, or a length above `SLOT_BYTES`; with no other effect. -/
def Obligations.AdoptRejects : Prop :=
  ∀ (s : State) (l : Latch) (k : Fin Config.numSlots), s.latch = some l →
    ((s.slot k).full = true ∨ Config.maxChunkLen < l.srcLen.toNat ∨ typeIsValid l.typeCode = false
      ∨ Config.slotBytes < l.srcLen.toNat) →
    ∃ t, exec (.adopt k.val) s = .next t ∧ OnlyCompleted s t l .illegalArgument 0

/-- R83: `SER` that passes every check writes the frame of the slot's type, length and data (an UNWRITTEN
cell gives any byte, the same in the data and in the CRC), reports its size, and changes no other byte of
`M` and no slot. -/
def Obligations.SerWritesTheFrame : Prop :=
  ∀ (s : State) (l : Latch) (k : Fin Config.numSlots), s.latch = some l → (s.slot k).full = true →
    l.dstAddr ≠ 0 → l.dstAddr.toNat + l.dstCap.toNat ≤ 2 ^ 32 →
    (s.slot k).slen.toNat + 12 ≤ l.dstCap.toNat →
    ∃ t d, exec (.ser k.val) s = .next t
      ∧ Completed s t l .ok (BitVec.ofNat 32 ((s.slot k).slen.toNat + 12))
      ∧ d.length = (s.slot k).slen.toNat
      ∧ (∀ i (h : i < d.length) b, s.ramCell k i = some b → d[i] = b)
      ∧ t.holds l.dstAddr.toNat (frame (s.slot k).slen (s.slot k).stype d)
      ∧ t.crcOut = chunkCrc (s.slot k).stype d ∧ t.crcRcvd = s.crcRcvd ∧ SameSlots s t
      ∧ (∀ x, (x < l.dstAddr.toNat ∨ l.dstAddr.toNat + (s.slot k).slen.toNat + 12 ≤ x) →
          t.readByte x = s.readByte x)

/-- R83: "If the destination buffer is smaller than required, the call does not write anything and reports
the required size": a FULL slot, a range neither null nor wrapping, a capacity below the frame's size. The
probe with address 0 and capacity 0 is one case. -/
def Obligations.SerReportsTheRequiredSize : Prop :=
  ∀ (s : State) (l : Latch) (k : Fin Config.numSlots), s.latch = some l → (s.slot k).full = true →
    (l.dstCap = 0 ∨ l.dstAddr ≠ 0) → l.dstAddr.toNat + l.dstCap.toNat ≤ 2 ^ 32 →
    (s.slot k).slen.toNat ≤ Config.maxChunkLen → l.dstCap.toNat < (s.slot k).slen.toNat + 12 →
    ∃ t, exec (.ser k.val) s = .next t ∧ t.result.toNat = (s.slot k).slen.toNat + 12
      ∧ OnlyCompleted s t l .capacityExceeded t.result

/-- R83: `SER` raises `IllegalArgument` for an EMPTY slot, then `NullArgument` for a null buffer, then
`IllegalArgument` for a wrapping one, whatever the capacity needed; with no other effect. -/
def Obligations.SerRejectsInOrder : Prop :=
  ∀ (s : State) (l : Latch) (k : Fin Config.numSlots), s.latch = some l →
    ((s.slot k).full = false →
      ∃ t, exec (.ser k.val) s = .next t ∧ OnlyCompleted s t l .illegalArgument 0)
    ∧ ((s.slot k).full = true → l.dstCap ≠ 0 → l.dstAddr = 0 →
      ∃ t, exec (.ser k.val) s = .next t ∧ OnlyCompleted s t l .nullArgument 0)
    ∧ ((s.slot k).full = true → l.dstAddr ≠ 0 → 2 ^ 32 < l.dstAddr.toNat + l.dstCap.toNat →
      ∃ t, exec (.ser k.val) s = .next t ∧ OnlyCompleted s t l .illegalArgument 0)

/-- R84: `DESER` into an EMPTY slot of a range that begins with the frame of a type and data the slot can
hold makes the slot FULL with them and reports the bytes consumed; bytes past the frame, cells past the
data, the other slots and `M` stay. The type must be valid if the configuration validates it. -/
def Obligations.DeserAcceptsAFrame : Prop :=
  ∀ (s : State) (l : Latch) (k : Fin Config.numSlots) (tc : Word) (d : List Byte), s.latch = some l →
    (s.slot k).full = false → l.srcAddr ≠ 0 → l.srcAddr.toNat + l.srcLen.toNat ≤ 2 ^ 32 →
    d.length ≤ Config.slotBytes → d.length + 12 ≤ l.srcLen.toNat →
    (Config.deserValidatesType = true → typeIsValid tc = true) →
    s.holds l.srcAddr.toNat (frame (BitVec.ofNat 32 d.length) tc d) →
    ∃ t, exec (.deser k.val) s = .next t ∧ Completed s t l .ok (BitVec.ofNat 32 (d.length + 12))
      ∧ (t.slot k).full = true ∧ (t.slot k).stype = tc ∧ (t.slot k).slen = BitVec.ofNat 32 d.length
      ∧ t.ramHolds k d ∧ (∀ o, d.length ≤ o → t.ramCell k o = s.ramCell k o)
      ∧ t.crcOut = chunkCrc tc d ∧ t.crcRcvd = chunkCrc tc d
      ∧ (∀ j, j ≠ k → SameSlot s t j) ∧ SameMem s t

/-- R84: a frame whose CRC field differs from the CRC of its type and data raises `ChecksumMismatch(0)`:
the slot's record stays EMPTY, its RAM holds the frame's data, both CRC registers show the comparison. -/
def Obligations.DeserKeepsAMismatchedFrameOut : Prop :=
  ∀ (s : State) (l : Latch) (k : Fin Config.numSlots) (tc received : Word) (d : List Byte),
    s.latch = some l → (s.slot k).full = false → l.srcAddr ≠ 0 →
    l.srcAddr.toNat + l.srcLen.toNat ≤ 2 ^ 32 → d.length ≤ Config.slotBytes →
    d.length + 12 ≤ l.srcLen.toNat → (Config.deserValidatesType = true → typeIsValid tc = true) →
    received ≠ chunkCrc tc d →
    s.holds l.srcAddr.toNat (toBE32 (BitVec.ofNat 32 d.length) ++ toBE32 tc ++ d ++ toBE32 received) →
    ∃ t, exec (.deser k.val) s = .next t ∧ Completed s t l .checksumMismatch 0
      ∧ SameRecord s t k ∧ t.ramHolds k d ∧ (∀ o, d.length ≤ o → t.ramCell k o = s.ramCell k o)
      ∧ t.crcOut = chunkCrc tc d ∧ t.crcRcvd = received
      ∧ (∀ j, j ≠ k → SameSlot s t j) ∧ SameMem s t

/-- R84: the checks of `DESER` before the CRC, the first failing one reported with no other effect: FULL
slot, null range, wrapping range, fewer than four bytes (12 needed), a length above `MAX_CHUNK_LEN`, an
incomplete frame (its size needed), an invalid type if the configuration validates it, a length above
`SLOT_BYTES`. -/
def Obligations.DeserRejectsInOrder : Prop :=
  ∀ (s : State) (l : Latch) (k : Fin Config.numSlots), s.latch = some l →
    ((s.slot k).full = true →
      ∃ t, exec (.deser k.val) s = .next t ∧ OnlyCompleted s t l .illegalArgument 0)
    ∧ ((s.slot k).full = false → l.srcLen ≠ 0 → l.srcAddr = 0 →
      ∃ t, exec (.deser k.val) s = .next t ∧ OnlyCompleted s t l .nullArgument 0)
    ∧ ((s.slot k).full = false → l.srcAddr ≠ 0 → 2 ^ 32 < l.srcAddr.toNat + l.srcLen.toNat →
      ∃ t, exec (.deser k.val) s = .next t ∧ OnlyCompleted s t l .illegalArgument 0)
    ∧ ((s.slot k).full = false → (l.srcLen = 0 ∨ l.srcAddr ≠ 0) →
        l.srcAddr.toNat + l.srcLen.toNat ≤ 2 ^ 32 → l.srcLen.toNat < 4 →
      ∃ t, exec (.deser k.val) s = .next t ∧ OnlyCompleted s t l .incompleteData 12)
    ∧ ((s.slot k).full = false → l.srcAddr ≠ 0 → l.srcAddr.toNat + l.srcLen.toNat ≤ 2 ^ 32 →
        4 ≤ l.srcLen.toNat → ∀ len, s.holds l.srcAddr.toNat (toBE32 len) →
      (Config.maxChunkLen < len.toNat →
        ∃ t, exec (.deser k.val) s = .next t ∧ OnlyCompleted s t l .malformedData 0)
      ∧ (len.toNat ≤ Config.maxChunkLen → l.srcLen.toNat < len.toNat + 12 →
        ∃ t, exec (.deser k.val) s = .next t ∧ t.result.toNat = len.toNat + 12
          ∧ OnlyCompleted s t l .incompleteData t.result)
      ∧ (len.toNat ≤ Config.maxChunkLen → len.toNat + 12 ≤ l.srcLen.toNat →
        ∀ tc, s.holds (l.srcAddr.toNat + 4) (toBE32 tc) →
        (typeIsValid tc = false →
          ∃ t, exec (.deser k.val) s = .next t
            ∧ (Config.deserValidatesType = true → OnlyCompleted s t l .illegalArgument 0))
        ∧ ((Config.deserValidatesType = true → typeIsValid tc = true) → Config.slotBytes < len.toNat →
          ∃ t, exec (.deser k.val) s = .next t ∧ OnlyCompleted s t l .outOfMemory 0)))

/-- R85: `CLEAR`, word `0x00000006 | (k << 8)`, makes the slot's record EMPTY and leaves its RAM, the other
slots, `M` and the CRC registers as they are. -/
def Obligations.ClearEmptiesTheRecordOnly : Prop :=
  ∀ (s : State) (l : Latch) (k : Fin Config.numSlots), s.latch = some l →
    decode (0x00000006 ||| BitVec.ofNat 32 k.val <<< 8) = .ok (.clear k.val)
      ∧ ∃ t, exec (.clear k.val) s = .next t ∧ Completed s t l .ok 0
        ∧ (t.slot k).full = false ∧ (t.slot k).stype = 0 ∧ (t.slot k).slen = 0 ∧ SameRam s t k
        ∧ (∀ j, j ≠ k → SameSlot s t j) ∧ SameMem s t ∧ SameCrc s t

/-- R86: `FREE`, word `0x00000007 | (k << 8)`, of a FULL slot zeroes the cells of its data and no other; of
an EMPTY slot it zeroes none; then the record is EMPTY. -/
def Obligations.FreeZeroesThenClears : Prop :=
  ∀ (s : State) (l : Latch) (k : Fin Config.numSlots), s.latch = some l →
    decode (0x00000007 ||| BitVec.ofNat 32 k.val <<< 8) = .ok (.free k.val)
      ∧ ∃ t, exec (.free k.val) s = .next t ∧ Completed s t l .ok 0
        ∧ (t.slot k).full = false ∧ (t.slot k).stype = 0 ∧ (t.slot k).slen = 0
        ∧ ((s.slot k).full = true → ∀ o, o < (s.slot k).slen.toNat → t.ramCell k o = some 0)
        ∧ ((s.slot k).full = true → ∀ o, (s.slot k).slen.toNat ≤ o → t.ramCell k o = s.ramCell k o)
        ∧ ((s.slot k).full = false → SameRam s t k)
        ∧ (∀ j, j ≠ k → SameSlot s t j) ∧ SameMem s t ∧ SameCrc s t

/-- R87: `SWAP`, word `0x00000008 | (ka << 8) | (kb << 12)`, exchanges the records and the whole RAMs of its
two slots, UNWRITTEN cells included, and changes no other slot; with one slot named twice nothing changes.
A slot number the configuration lacks, in either place, raises `IllegalArgument`. -/
def Obligations.SwapExchangesWholeSlots : Prop :=
  (∀ (s : State) (l : Latch) (ka kb : Fin Config.numSlots), s.latch = some l →
    decode (0x00000008 ||| BitVec.ofNat 32 ka.val <<< 8 ||| BitVec.ofNat 32 kb.val <<< 12)
        = .ok (.swap ka.val kb.val)
      ∧ ∃ t, exec (.swap ka.val kb.val) s = .next t ∧ Completed s t l .ok 0
        ∧ t.slot ka = s.slot kb ∧ t.slot kb = s.slot ka
        ∧ (∀ j, j ≠ ka → j ≠ kb → SameSlot s t j) ∧ SameMem s t ∧ SameCrc s t)
    ∧ ∀ (s : State) (l : Latch) (a b : Nat), s.latch = some l → Config.numSlots ≤ a ∨ Config.numSlots ≤ b →
      ∃ t, exec (.swap a b) s = .next t ∧ OnlyCompleted s t l .illegalArgument 0

/-! ## Frames -/

/-- R38: only `SER` writes `M`. -/
def Obligations.OnlySerChangesHostMemory : Prop :=
  ∀ (i : Instr) (s t : State), exec i s = .next t → (∀ n, i ≠ .ser n) → SameMem s t

/-- R83: `SER` changes no slot and not `CRC_RCVD`, and no byte of `M` outside the `SLEN + 12` bytes from
`DST_ADDR`; if it does not complete with `OK` it changes none. -/
def Obligations.SerChangesOnlyTheFrameBytes : Prop :=
  ∀ (n : Nat) (s t : State) (l : Latch), s.latch = some l → exec (.ser n) s = .next t →
    SameSlots s t ∧ t.crcRcvd = s.crcRcvd
      ∧ (∀ k, slotIndex? n = some k →
          ∀ x, (x < l.dstAddr.toNat ∨ l.dstAddr.toNat + (s.slot k).slen.toNat + 12 ≤ x) →
            t.readByte x = s.readByte x)
      ∧ (t.err ≠ ErrorKind.ok.code → SameMem s t)

/-- R58, R81 to R87: a command changes no slot, record or RAM, that it does not name. -/
def Obligations.UnnamedSlotsStay : Prop :=
  ∀ (i : Instr) (s t : State) (k : Fin Config.numSlots), exec i s = .next t → k.val ∉ namedSlots i →
    SameSlot s t k

/-- R81, R82, R84, R85, R86: of the slot they name, the commands change no cell past the data they move or
zero, and `ADOPT` and `CLEAR` change no cell at all. -/
def Obligations.CellsPastTheDataStay : Prop :=
  ∀ (s t : State) (l : Latch) (k : Fin Config.numSlots), s.latch = some l →
    (exec (.create k.val) s = .next t →
        ∀ o, l.srcLen.toNat ≤ o → t.ramCell k o = s.ramCell k o)
      ∧ (exec (.deser k.val) s = .next t → ∀ len, s.holds l.srcAddr.toNat (toBE32 len) →
        ∀ o, len.toNat ≤ o → t.ramCell k o = s.ramCell k o)
      ∧ (exec (.free k.val) s = .next t →
        ∀ o, (s.slot k).slen.toNat ≤ o → t.ramCell k o = s.ramCell k o)
      ∧ (exec (.adopt k.val) s = .next t → SameRam s t k)
      ∧ (exec (.clear k.val) s = .next t → SameRam s t k)

/-- R27: `CRC_RCVD` is written by `DESER` alone and `CRC_OUT` by `CRC`, `SER` and `DESER` alone; a
completion with an error other than `ChecksumMismatch` writes neither. -/
def Obligations.CrcRegistersChangeOnlyByTheirCommands : Prop :=
  ∀ (i : Instr) (s t : State), exec i s = .next t →
    ((∀ n, i ≠ .deser n) → t.crcRcvd = s.crcRcvd)
      ∧ (i ≠ .crc → (∀ n, i ≠ .ser n) → (∀ n, i ≠ .deser n) → t.crcOut = s.crcOut)
      ∧ (t.err ≠ ErrorKind.ok.code → t.err ≠ ErrorKind.checksumMismatch.code → SameCrc s t)

/-- R41: "The engine never reads or writes `M[0]`": two states that differ in `M[0]` at most are left
differing in `M[0]` at most, with `M[0]` as it was. -/
def Obligations.EngineIgnoresByteZero : Prop :=
  ∀ (i : Instr) (s t : State) (m : Memory),
    (∀ a, a ≠ 0 → State.readByte { s with mem := m } a = s.readByte a) → exec i s = .next t →
    ∃ t', exec i { s with mem := m } = .next t' ∧ t' = { t with mem := t'.mem }
      ∧ t.readByte 0 = s.readByte 0 ∧ t'.readByte 0 = State.readByte { s with mem := m } 0
      ∧ (∀ a, a ≠ 0 → t'.readByte a = t.readByte a)

/-- R33: a command reads its operands from the latch, never from the live registers: what the operand
registers hold changes nothing but themselves. -/
def Obligations.CommandsUseTheLatchedOperands : Prop :=
  ∀ (i : Instr) (s t : State) (a b c d e : Word), exec i s = .next t →
    exec i { s with typeReg := a, srcAddr := b, srcLen := c, dstAddr := d, dstCap := e }
      = .next { t with typeReg := a, srcAddr := b, srcLen := c, dstAddr := d, dstCap := e }

/-! ## Host accesses -/

/-- R22: a write of `w` to `CMD` while idle latches the word with the operand registers, sets `BUSY`,
clears `DONE` and changes nothing else a host can see; while busy it only sets `OVERRUN`. `CMD` reads 0.
An ill-formed word is accepted, and rejected at completion with `IllegalCommand`. -/
def Obligations.CmdWriteIssuesOrOverruns : Prop :=
  ∀ (s : State) (w : Word),
    (s.busy = false → ∃ t, hostAccess (.write 0x014 .w32 w) s = .next t
      ∧ t.latch = some ⟨w, s.typeReg, s.srcAddr, s.srcLen, s.dstAddr, s.dstCap⟩
      ∧ t.busy = true ∧ t.done = false ∧ SameCompletion s t ∧ SameCrc s t ∧ SameSlots s t ∧ SameMem s t
      ∧ SameOperands s t ∧ t.irqEn = s.irqEn ∧ t.overrun = s.overrun ∧ t.accessErr = s.accessErr
      ∧ t.program = s.program ∧ t.reads = s.reads)
    ∧ (s.busy = true → hostAccess (.write 0x014 .w32 w) s = .next { s with overrun := true })
    ∧ hostAccess (.read 0x014 .w32) s = .next (s.record (.read 0x014 .w32) 0)
    ∧ ∀ (l : Latch) (e : IllegalWord), s.latch = some l → s.engineMoves → decode l.cmd = .error e →
        ∃ t, step s = .next t ∧ OnlyCompleted s t l .illegalCommand 0

/-- R21: a read of `STATUS` gives `BUSY`, `DONE`, `OVERRUN`, `ACCESS_ERR` in bits 0 to 3 and 0 above, and
changes nothing; a write clears `DONE`, `OVERRUN`, `ACCESS_ERR` where it has a 1 and changes nothing
else. -/
def Obligations.StatusReadsAndClearsItsBits : Prop :=
  ∀ s : State,
    (∃ v, hostAccess (.read 0x010 .w32) s = .next (s.record (.read 0x010 .w32) v)
      ∧ v.getLsbD 0 = s.busy ∧ v.getLsbD 1 = s.done ∧ v.getLsbD 2 = s.overrun
      ∧ v.getLsbD 3 = s.accessErr ∧ ∀ i, 4 ≤ i → v.getLsbD i = false)
    ∧ ∀ v : Word, hostAccess (.write 0x010 .w32 v) s = .next { s with
        done := s.done && !v.getLsbD 1
        overrun := s.overrun && !v.getLsbD 2
        accessErr := s.accessErr && !v.getLsbD 3 }

/-- R16 to R30, R36: what an aligned 32-bit read of each register returns, with nothing changed but the
host's list of values read. -/
def Obligations.RegisterMapReads : Prop :=
  ∀ s : State,
    let reads := fun (off : Nat) (v : Word) =>
      hostAccess (.read off .w32) s = .next (s.record (.read off .w32) v)
    reads 0x000 0x504E4743 ∧ reads 0x004 0x00000001
      ∧ reads 0x008 (if Config.deserValidatesType = true then 0x00400104 else 0x00400004)
      ∧ reads 0x00C (if s.irqEn = true then 1 else 0) ∧ reads 0x014 0
      ∧ reads 0x018 (s.err.setWidth 32) ∧ reads 0x01C s.lastCmd ∧ reads 0x020 s.typeReg
      ∧ reads 0x024 s.srcAddr ∧ reads 0x028 s.srcLen ∧ reads 0x02C s.dstAddr ∧ reads 0x030 s.dstCap
      ∧ reads 0x034 s.result ∧ reads 0x038 s.crcOut ∧ reads 0x03C s.crcRcvd
      ∧ (∀ k : Fin Config.numSlots,
          reads (0x040 + 0x10 * k.val) (if (s.slot k).full = true then 1 else 0)
            ∧ reads (0x044 + 0x10 * k.val) (s.slot k).stype
            ∧ reads (0x048 + 0x10 * k.val) (s.slot k).slen)
      ∧ (∀ n, Config.numSlots ≤ n → n < 16 →
          reads (0x040 + 0x10 * n) 0 ∧ reads (0x044 + 0x10 * n) 0 ∧ reads (0x048 + 0x10 * n) 0)
      ∧ (∀ n, n < 16 → reads (0x04C + 0x10 * n) 0)

/-- R20, R25, R36: an aligned 32-bit write reaches the operand register at its offset or `CTRL.IRQ_EN`, and
is ignored at a read-only register or a reserved offset. -/
def Obligations.RegisterWritesReachTheirRegister : Prop :=
  ∀ (s : State) (v : Word),
    let writes := fun (off : Nat) (t : State) => hostAccess (.write off .w32 v) s = .next t
    writes 0x020 { s with typeReg := v } ∧ writes 0x024 { s with srcAddr := v }
      ∧ writes 0x028 { s with srcLen := v } ∧ writes 0x02C { s with dstAddr := v }
      ∧ writes 0x030 { s with dstCap := v }
      ∧ (v.getLsbD 31 = false → writes 0x00C { s with irqEn := v.getLsbD 0 })
      ∧ writes 0x000 s ∧ writes 0x004 s ∧ writes 0x008 s ∧ writes 0x018 s ∧ writes 0x01C s
      ∧ (∀ off, 0x034 ≤ off → off < 0x140 → off % 4 = 0 → writes off s)

/-- R44: an access of the register block that is not 32 bits wide at a multiple of 4 sets `ACCESS_ERR`, is
dropped if a write and returns 0 if a read. -/
def Obligations.IllFormedRegisterAccessesAreRefused : Prop :=
  ∀ (s : State) (off : Nat) (w : Width), off < 0x140 → (w ≠ .w32 ∨ off % 4 ≠ 0) →
    hostAccess (.read off w) s = .next (State.record { s with accessErr := true } (.read off w) 0)
      ∧ ∀ v, hostAccess (.write off w v) s = .next { s with accessErr := true }

/-- R43, R32: a byte read of the aperture of a slot the configuration has returns the cell, and some byte
if the cell is UNWRITTEN, leaving every cell as it was; any other width or slot returns 0 and sets
`ACCESS_ERR`. The slot is not named by a command in flight (R107). -/
def Obligations.ApertureReadsReturnCells : Prop :=
  ∀ (s : State) (n o : Nat) (w : Width), n < 16 → o < 0x00400000 → s.apertureHazard n = false →
    (∀ k : Fin Config.numSlots, n = k.val → w = .w8 →
      ∃ t b, hostAccess (.read (0x01000000 + n * 0x00400000 + o) w) s = .next t
        ∧ t.reads = s.reads ++ [⟨.read (0x01000000 + n * 0x00400000 + o) w, b.setWidth 32⟩]
        ∧ (∀ c : Byte, s.ramCell k o = some c → b = c) ∧ t.slots = s.slots
        ∧ t.accessErr = s.accessErr)
    ∧ (w ≠ .w8 ∨ Config.numSlots ≤ n →
      hostAccess (.read (0x01000000 + n * 0x00400000 + o) w) s
        = .next (State.record { s with accessErr := true }
            (.read (0x01000000 + n * 0x00400000 + o) w) 0))

/-- R43: a byte write to the aperture of an EMPTY slot writes the cell and nothing else; to a FULL slot, of
another width or of a slot the configuration lacks it is dropped and sets `ACCESS_ERR`. The slot is not
named by a command in flight (R107). -/
def Obligations.ApertureWritesFillEmptySlots : Prop :=
  ∀ (s : State) (n o : Nat) (w : Width) (v : Word), n < 16 → o < 0x00400000 →
    s.apertureHazard n = false →
    (∀ k : Fin Config.numSlots, n = k.val → w = .w8 → (s.slot k).full = false →
      ∃ t, hostAccess (.write (0x01000000 + n * 0x00400000 + o) w v) s = .next t
        ∧ t = { s with slots := t.slots }
        ∧ t.ramCell k o = some (v.setWidth 8) ∧ (∀ x, x ≠ o → t.ramCell k x = s.ramCell k x)
        ∧ SameRecord s t k ∧ (∀ j, j ≠ k → SameSlot s t j))
    ∧ ((w ≠ .w8 ∨ Config.numSlots ≤ n ∨ ∃ k : Fin Config.numSlots, n = k.val ∧ (s.slot k).full = true) →
      hostAccess (.write (0x01000000 + n * 0x00400000 + o) w v) s = .next { s with accessErr := true })

/-- R38, R39: the host reads the byte of `M` at an address and writes it, changing no other byte, where no
command in flight owns the address (R107) and the platform has memory there (log 8). -/
def Obligations.HostMemoryAccesses : Prop :=
  ∀ (s : State) (a : Nat), a < 2 ^ 32 → s.hasMemory a = true → s.outputHazard a = false →
    hostAccess (.memRead a) s = .next (s.record (.memRead a) ((s.readByte a).setWidth 32))
      ∧ (s.inputHazard a = false → ∀ b : Byte, ∃ t, hostAccess (.memWrite a b) s = .next t
          ∧ t = { s with mem := t.mem } ∧ t.readByte a = b
          ∧ ∀ x, x ≠ a → t.readByte x = s.readByte x)

/-- R107: while a command is in flight a host write in its input range, a host access of its output range,
and a host access of the aperture of a slot it names are hazard faults. That the hazard comes before
`ACCESS_ERR` (an access that is not byte wide, a slot the configuration lacks) is the model's reading
(log 15), and that it comes before the fault of an address without memory is the model's choice
(log 8). -/
def Obligations.RacingAccessesFault : Prop :=
  ∀ (s : State) (l : Latch) (i : Instr), s.latch = some l → decode l.cmd = .ok i →
    (∀ a (b : Byte), (i = .crc ∨ (∃ n, i = .create n) ∨ ∃ n, i = .deser n) → a < 2 ^ 32 →
        l.srcAddr.toNat ≤ a → a < l.srcAddr.toNat + l.srcLen.toNat →
        hostAccess (.memWrite a b) s = .fault .hazardInputWrite)
      ∧ (∀ a (b : Byte), (∃ n, i = .ser n) → a < 2 ^ 32 →
        l.dstAddr.toNat ≤ a → a < l.dstAddr.toNat + l.dstCap.toNat →
        hostAccess (.memRead a) s = .fault .hazardOutputAccess
          ∧ hostAccess (.memWrite a b) s = .fault .hazardOutputAccess)
      ∧ (∀ n o (w : Width) (v : Word), n ∈ namedSlots i → n < 16 → o < 0x00400000 →
        hostAccess (.read (0x01000000 + n * 0x00400000 + o) w) s = .fault .hazardAperture
          ∧ hostAccess (.write (0x01000000 + n * 0x00400000 + o) w v) s = .fault .hazardAperture)

/-- R108: a command one of whose operand range's addresses the platform maps onto the device window, or
gives no memory to, is a hazard fault at the engine step. Where the check stands is the model's (log
8). -/
def Obligations.UnbackedOperandRangesFault : Prop :=
  ∀ (s : State) (l : Latch) (i : Instr) (a n x : Nat), s.latch = some l → s.engineMoves →
    decode l.cmd = .ok i → (inputRange i l = some (a, n) ∨ outputRange i l = some (a, n)) →
    a ≤ x → x < a + n → s.hasMemory x = false →
    step s = .fault .hazardDeviceMapped ∨ step s = .fault .hazardUnbacked

/-! ## Reset -/

/-- R103, R20: a write to `CTRL` with bit 31 set, whatever its other bits, puts every register and every
slot record at its power-on value, ends the command in flight and lowers `IRQ`; with none in flight every
RAM cell and every byte of `M` stays. That abandoning a command whose operand range has no memory is no
hazard fault is the model's choice (log 18). -/
def Obligations.SoftResetResetsTheEngine : Prop :=
  ∀ (s : State) (v : Word), v.getLsbD 31 = true →
    ∃ t, hostAccess (.write 0x00C .w32 v) s = .next t
      ∧ t.irqEn = false ∧ t.busy = false ∧ t.done = false ∧ t.overrun = false ∧ t.accessErr = false
      ∧ t.err = 0 ∧ t.lastCmd = 0 ∧ t.typeReg = 0 ∧ t.srcAddr = 0 ∧ t.srcLen = 0 ∧ t.dstAddr = 0
      ∧ t.dstCap = 0 ∧ t.result = 0 ∧ t.crcOut = 0 ∧ t.crcRcvd = 0 ∧ t.latch = none ∧ t.irq = false
      ∧ (∀ k, (t.slot k).full = false ∧ (t.slot k).stype = 0 ∧ (t.slot k).slen = 0)
      ∧ (s.latch = none → (∀ k, SameRam s t k) ∧ SameMem s t)

/-- R104: a soft reset with a command in flight changes no byte of `M` outside the output range of `SER`,
no cell past `SRC_LEN` of the slot of `CREATE` or `DESER` or past `SLEN` of the slot of `FREE`, no cell of
a slot the command does not name, and no cell or byte at all for `CRC`, `NOP`, `ADOPT`, `CLEAR` and
ill-formed words. That R104's ranges are taken for a command that would have failed too is the model's
reading (log 9); that abandoning a command whose range has no memory is no hazard fault is its choice
(log 18). -/
def Obligations.AbandonedCommandsLeaveOtherStorage : Prop :=
  ∀ (s : State) (l : Latch) (v : Word), s.latch = some l → v.getLsbD 31 = true →
    ∃ t, hostAccess (.write 0x00C .w32 v) s = .next t
      ∧ (∀ e, decode l.cmd = .error e → SameMem s t ∧ ∀ k, SameRam s t k)
      ∧ (∀ i, decode l.cmd = .ok i →
        ((∀ n, i ≠ .ser n) → SameMem s t)
        ∧ (∀ n, i = .ser n → ∀ x, (x < l.dstAddr.toNat ∨ l.dstAddr.toNat + l.dstCap.toNat ≤ x) →
            t.readByte x = s.readByte x)
        ∧ (∀ k : Fin Config.numSlots, k.val ∉ namedSlots i → SameRam s t k)
        ∧ (∀ k : Fin Config.numSlots, (i = .create k.val ∨ i = .deser k.val) →
            ∀ o, l.srcLen.toNat ≤ o → t.ramCell k o = s.ramCell k o)
        ∧ (∀ k : Fin Config.numSlots, i = .free k.val →
            ∀ o, (s.slot k).slen.toNat ≤ o → t.ramCell k o = s.ramCell k o)
        ∧ ((∃ n, i = .ser n ∨ i = .adopt n ∨ i = .clear n) → ∀ k, SameRam s t k))

/-- R35: `IRQ` is the level `IRQ_EN & DONE`, 0 at reset. It rises at a completion when `IRQ_EN = 1`, that
of an ill-formed word at the engine step included, and falls when the host clears `DONE`, clears `IRQ_EN`,
issues a command or resets the engine. -/
def Obligations.InterruptFollowsDone : Prop :=
  State.reset.irq = false ∧ (∀ s : State, s.irq = true ↔ s.irqEn = true ∧ s.done = true)
    ∧ (∀ (i : Instr) (s t : State), exec i s = .next t → t.irq = s.irqEn)
    ∧ (∀ (s t : State) (l : Latch), s.latch = some l → s.engineMoves → step s = .next t → t.irq = s.irqEn)
    ∧ (∀ (s t : State) (v : Word), v.getLsbD 1 = true →
        hostAccess (.write 0x010 .w32 v) s = .next t → t.irq = false)
    ∧ (∀ (s t : State) (v : Word), (v.getLsbD 0 = false ∨ v.getLsbD 31 = true) →
        hostAccess (.write 0x00C .w32 v) s = .next t → t.irq = false)
    ∧ (∀ (s t : State) (w : Word), s.busy = false →
        hostAccess (.write 0x014 .w32 w) s = .next t → t.irq = false)

/-- R102: after power-on `ID`, `VERSION` and `PARAMS` read their constants, `IRQ_EN`, the `STATUS` bits,
`ERR`, `LAST_CMD`, `RESULT`, the CRC registers and the operand registers are 0, every slot is EMPTY, every
RAM cell UNWRITTEN, no command is in flight, `IRQ` is 0, and `M` holds the platform's initial contents. The
engine accepts a command at the first host access. -/
def Obligations.ResetState : Prop :=
  let s := State.reset
  s.irqEn = false ∧ s.busy = false ∧ s.done = false ∧ s.overrun = false ∧ s.accessErr = false
    ∧ s.err = 0 ∧ s.lastCmd = 0 ∧ s.result = 0 ∧ s.crcOut = 0 ∧ s.crcRcvd = 0 ∧ s.typeReg = 0
    ∧ s.srcAddr = 0 ∧ s.srcLen = 0 ∧ s.dstAddr = 0 ∧ s.dstCap = 0 ∧ s.latch = none ∧ s.irq = false
    ∧ (∀ k, (s.slot k).full = false ∧ (s.slot k).stype = 0 ∧ (s.slot k).slen = 0)
    ∧ (∀ k o, s.ramCell k o = none) ∧ (∀ a, s.readByte a = Config.platformByte a)
    ∧ s.readReg .id = 0x504E4743 ∧ s.readReg .version = 0x00000001
    ∧ s.readReg .params = (if Config.deserValidatesType = true then 0x00400104 else 0x00400004)
    ∧ ∀ w : Word, ∃ t, hostAccess (.write 0x014 .w32 w) s = .next t ∧ t.latch = some ⟨w, 0, 0, 0, 0, 0⟩

/-! ## Invariants and progress -/

/-- The invariant (R31, R34, R92, R97 and the canonical form of storage) holds after power-on. -/
def Obligations.ResetMeetsTheInvariant : Prop := State.reset.Inv

/-- R31 (a), (b), R34, R92, R97: from every state that meets the invariant, a step of either agent leaves
one that does: slot records legal, `BUSY` exactly while a command is latched, `DONE` low while busy, `ERR`
one of the nine codes, storage canonical and within its space (log 3, log 4). -/
def Obligations.StepKeepsTheInvariant : Prop := ∀ s t : State, s.Inv → step s = .next t → t.Inv

/-- R31 (c): a FULL slot's type is valid, or stood in a FULL slot before the step, unless the
configuration does not validate the type of a frame. -/
def Obligations.FullSlotTypesAreValidOrCarried : Prop :=
  ∀ (s t : State) (k : Fin Config.numSlots), step s = .next t → (t.slot k).full = true →
    typeIsValid (t.slot k).stype = true
      ∨ (∃ j, (s.slot j).full = true ∧ (s.slot j).stype = (t.slot k).stype)
      ∨ Config.deserValidatesType = false

/-- R112: a command in flight has ended, by its completion, by a soft reset or by a hazard fault, after at
most one step more than the accesses the host still makes before the engine's step. The count is the
model's (log 1). -/
def Obligations.CommandInFlightEndsInBoundedSteps : Prop :=
  ∀ s : State, s.Inv → s.latch.isSome = true →
    ∃ n, n ≤ s.delay + 1 ∧
      ((∃ t, Sys2Proof.core.run n s = .next t ∧ t.latch = none)
        ∨ ∃ f, Sys2Proof.core.run n s = .fault f)

/-! ## The CRC and the codec's properties -/

/-- R70: the table form of the per-byte step is the bit-serial form. The step is the spec's general
knowledge (93 G2, log 17). -/
def Obligations.TableStepIsBitSerial : Prop :=
  ∀ (c : Word) (b : Byte), crcStep c b = crcShifts 8 (c ^^^ b.setWidth 32)

/-- Values of R69, R74, R76 and 95 L2.1 (93 G1, G4, log 17). -/
def Obligations.KnownCrcValues : Prop :=
  crcTable 0x01 = 0x77073096 ∧ crcTable 0x80 = 0xEDB88320 ∧ crcTable 0xFF = 0x2D02EF8D
    ∧ crc32nc [] = 0xFFFFFFFF ∧ crc32nc [0x00] = 0x2DFD1072
    ∧ chunkCrc 0x49454E44 [] = 0x51BD9F7D ∧ chunkCrc 0xFFFFFFFF [] = 0x00000000
    ∧ chunkCrc 0x49444154 [0x01, 0x00] = 0x9A1F7304 ∧ chunkCrc 0x49444154 [0x00, 0x01] = 0xF40372D3
    ∧ chunkCrc 0x31323334 [0x35, 0x36, 0x37, 0x38, 0x39] = 0x340BC6D9
    ∧ chunkCrc 0x31323334 [0x35, 0x36, 0x37, 0x38, 0x39] ^^^ 0xFFFFFFFF = 0xCBF43926

/-- R89, the part about the CRC: changing one byte of the data, or one byte of the type, changes the chunk
CRC. -/
def Obligations.SingleByteChangesChangeTheCrc : Prop :=
  ∀ (pre post : List Byte) (b b' : Byte), b ≠ b' →
    crc32nc (pre ++ b :: post) ≠ crc32nc (pre ++ b' :: post)

/-- R89: changing one byte of a frame's type, data or CRC field makes `DESER` fail with `ChecksumMismatch`,
or with `IllegalArgument` for a type byte that is no longer a letter if the configuration validates types;
the slot stays EMPTY. The frame is any that `DESER` accepts: its type must be valid if the configuration
validates it. -/
def Obligations.TamperedFramesNeverDeserialize : Prop :=
  ∀ (s : State) (l : Latch) (k : Fin Config.numSlots) (tc : Word) (d : List Byte) (i : Nat) (b : Byte),
    s.latch = some l → (s.slot k).full = false → l.srcAddr ≠ 0 →
    l.srcAddr.toNat + l.srcLen.toNat ≤ 2 ^ 32 → d.length ≤ Config.slotBytes →
    d.length + 12 ≤ l.srcLen.toNat → (Config.deserValidatesType = true → typeIsValid tc = true) →
    4 ≤ i → i < d.length + 12 → (frame (BitVec.ofNat 32 d.length) tc d)[i]? ≠ some b →
    s.holds l.srcAddr.toNat ((frame (BitVec.ofNat 32 d.length) tc d).set i b) →
    ∃ t, exec (.deser k.val) s = .next t ∧ SameRecord s t k
      ∧ (t.err = ErrorKind.checksumMismatch.code
        ∨ (t.err = ErrorKind.illegalArgument.code ∧ i < 8 ∧ isTypeLetter b = false
          ∧ Config.deserValidatesType = true))

/-- R88: `CREATE` into an EMPTY slot, `SER` of it into a buffer that can hold the frame, then `DESER` of
those bytes into another EMPTY slot, give back the type, the length and the data, and `DESER` consumes the
size `SER` wrote. -/
def Obligations.CreatedChunksSurviveTheRoundTrip : Prop :=
  ∀ (s : State) (l l₂ l₃ : Latch) (i j : Fin Config.numSlots) (d : List Byte),
    s.latch = some l → i ≠ j → (s.slot i).full = false → (s.slot j).full = false →
    typeIsValid l.typeCode = true → d.length = l.srcLen.toNat → d.length ≤ Config.slotBytes →
    (l.srcLen = 0 ∨ l.srcAddr ≠ 0) → l.srcAddr.toNat + l.srcLen.toNat ≤ 2 ^ 32 →
    s.holds l.srcAddr.toNat d →
    l₂.dstAddr ≠ 0 → d.length + 12 ≤ l₂.dstCap.toNat → l₂.dstAddr.toNat + l₂.dstCap.toNat ≤ 2 ^ 32 →
    l₃.srcAddr = l₂.dstAddr → d.length + 12 ≤ l₃.srcLen.toNat →
    l₃.srcAddr.toNat + l₃.srcLen.toNat ≤ 2 ^ 32 →
    ∃ t₁ t₂ t₃, exec (.create i.val) s = .next t₁
      ∧ exec (.ser i.val) { t₁ with latch := some l₂ } = .next t₂
      ∧ exec (.deser j.val) { t₂ with latch := some l₃ } = .next t₃
      ∧ t₃.err = ErrorKind.ok.code ∧ (t₃.slot j).full = true ∧ (t₃.slot j).stype = l.typeCode
      ∧ (t₃.slot j).slen.toNat = d.length ∧ t₃.ramHolds j d
      ∧ t₃.result = t₂.result ∧ t₃.result.toNat = d.length + 12

/-- R67: a byte is a type letter exactly if it is an upper or lower case ASCII letter; and a type code is
valid exactly if each of its four bytes is one (R68). -/
def Obligations.TypeValidityIsPerByte : Prop :=
  (∀ b : Byte, isTypeLetter b = true ↔
      (0x41 ≤ b.toNat ∧ b.toNat ≤ 0x5A) ∨ (0x61 ≤ b.toNat ∧ b.toNat ≤ 0x7A))
    ∧ ∀ b₀ b₁ b₂ b₃ : Byte, typeIsValid (be32 b₀ b₁ b₂ b₃) = true ↔
      ∀ b ∈ [b₀, b₁, b₂, b₃],
        (0x41 ≤ b.toNat ∧ b.toNat ≤ 0x5A) ∨ (0x61 ≤ b.toNat ∧ b.toNat ≤ 0x7A)

/-- R7: `BE32` weighs its bytes most significant first and inverts `toBE32`, in both directions. -/
def Obligations.BigEndianWordsRoundTrip : Prop :=
  (∀ b₀ b₁ b₂ b₃ : Byte,
      (be32 b₀ b₁ b₂ b₃).toNat
          = b₀.toNat * 2 ^ 24 + b₁.toNat * 2 ^ 16 + b₂.toNat * 2 ^ 8 + b₃.toNat
        ∧ toBE32 (be32 b₀ b₁ b₂ b₃) = [b₀, b₁, b₂, b₃])
    ∧ ∀ (v : Word) (b₀ b₁ b₂ b₃ : Byte), toBE32 v = [b₀, b₁, b₂, b₃] → be32 b₀ b₁ b₂ b₃ = v

/-- R77, R78: a frame is `L + 12` bytes: the length at 0, the type at 4, the data from 8, and the chunk CRC
of type and data at `8 + L`, each field most significant byte first. -/
def Obligations.FrameLayout : Prop :=
  ∀ (tc : Word) (d : List Byte),
    let f := frame (BitVec.ofNat 32 d.length) tc d
    let word := fun i => be32 (f.getD i 0) (f.getD (i + 1) 0) (f.getD (i + 2) 0) (f.getD (i + 3) 0)
    f.length = d.length + 12 ∧ word 0 = BitVec.ofNat 32 d.length ∧ word 4 = tc
      ∧ (∀ i, i < d.length → f[8 + i]? = d[i]?) ∧ word (8 + d.length) = chunkCrc tc d

/-! ## Host programs -/

/-- R64: `cmd`, `ack`, `reset`, `set` and `wait` as accesses, `set` being one write per named operand
register in the order written, and a `wait` loop that reads `STATUS` until bit 0 is 0. -/
def Obligations.PseudoStatementsExpand : Prop :=
  (∀ i : Instr, (Stmt.cmd i).accesses = [.write 0x014 .w32 (encode i)])
    ∧ (Stmt.set []).accesses = []
    ∧ (∀ (v : Word) (rs : List (OperandReg × Word)),
        (Stmt.set ((.typeReg, v) :: rs)).accesses = .write 0x020 .w32 v :: (Stmt.set rs).accesses
          ∧ (Stmt.set ((.srcAddr, v) :: rs)).accesses = .write 0x024 .w32 v :: (Stmt.set rs).accesses
          ∧ (Stmt.set ((.srcLen, v) :: rs)).accesses = .write 0x028 .w32 v :: (Stmt.set rs).accesses
          ∧ (Stmt.set ((.dstAddr, v) :: rs)).accesses = .write 0x02C .w32 v :: (Stmt.set rs).accesses
          ∧ (Stmt.set ((.dstCap, v) :: rs)).accesses = .write 0x030 .w32 v :: (Stmt.set rs).accesses)
    ∧ Stmt.ack.accesses = [.write 0x010 .w32 0x00000002]
    ∧ Stmt.reset.accesses = [.write 0x00C .w32 0x80000000] ∧ Stmt.wait.accesses = [.poll]
    ∧ (∀ s : State, s.busy = false →
        ∃ t, hostAccess .poll s = .next t ∧ t = { s with reads := t.reads })
    ∧ (∀ s : State, s.busy = true →
        ∃ t, hostAccess .poll s = .next t ∧ t = { s with reads := t.reads, program := .poll :: s.program })

/-- R40: the device window is `0x0500_0000` bytes at `BASE`, which is aligned to `0x0800_0000`; its
reserved offsets read 0 and ignore writes without error, at any width. That a 16-bit or 32-bit access which
begins at a reserved offset and runs past the last one into slot 0's aperture is one of these is the
model's reading, not R40's (log 14). -/
def Obligations.DeviceWindow : Prop :=
  Config.base % 0x08000000 = 0
    ∧ (∀ o, busOffset (Config.base + o) = if o < 0x05000000 then some o else none)
    ∧ (∀ a, a < Config.base → busOffset a = none)
    ∧ ∀ (s : State) (off : Nat) (w : Width), 0x140 ≤ off → off < 0x01000000 →
      hostAccess (.read off w) s = .next (s.record (.read off w) 0)
        ∧ ∀ v, hostAccess (.write off w v) s = .next s
end

