-- ==== Sys2Proof/Laws/Memory.lean ====
section
/-! SUPPORT. The laws of sparse byte storage: a read after a write, and that a write keeps the canonical
form. -/

namespace Sys2Proof.Machine

@[simp] theorem cellsFrom_nil (a : Nat) : cellsFrom a [] = [] := by cases a <;> rfl

@[simp] theorem cellsFrom_cons (a : Nat) (b : Byte) (bs : List Byte) :
    cellsFrom a (b :: bs) = (a, b) :: cellsFrom (a + 1) bs := by cases a <;> rfl

@[simp] theorem Memory.lookup_nil (a : Nat) : Memory.lookup [] a = none := by cases a <;> rfl

@[simp] theorem Memory.lookup_cons (k : Nat) (b : Byte) (m : Memory) (a : Nat) :
    Memory.lookup ((k, b) :: m) a = if k = a then some b else Memory.lookup m a := rfl

theorem Memory.lookup_append (m n : Memory) (a : Nat) :
    Memory.lookup (m ++ n) a = (Memory.lookup m a).or (Memory.lookup n a) := by
  induction m with
  | nil => simp
  | cons c m ih =>
    obtain ⟨k, b⟩ := c
    by_cases h : k = a <;> simp [h, ih]

/-- Filtering by address keeps the entry of an address that passes and drops one that does not. -/
theorem Memory.lookup_filter (m : Memory) (p : Nat → Bool) (a : Nat) :
    Memory.lookup (m.filter fun c => p c.1) a = if p a then Memory.lookup m a else none := by
  induction m with
  | nil => simp
  | cons c m ih =>
    obtain ⟨k, b⟩ := c
    by_cases hk : k = a
    · subst hk
      by_cases hp : p k <;> simp [hp, ih]
    · by_cases hp : p k <;> simp [hp, hk, ih]

theorem lookup_cellsFrom (bs : List Byte) (a x : Nat) :
    Memory.lookup (cellsFrom a bs) x = if a ≤ x then bs[x - a]? else none := by
  induction bs generalizing a with
  | nil => simp
  | cons b bs ih =>
    rw [cellsFrom_cons, Memory.lookup_cons, ih]
    by_cases h : a = x
    · simp [h]
    · by_cases hx : a ≤ x
      · have h1 : a + 1 ≤ x := by omega
        have h2 : x - a = (x - (a + 1)) + 1 := by omega
        simp [h, hx, h1, h2]
      · have h1 : ¬ a + 1 ≤ x := by omega
        simp [h, hx, h1]

/-- A read after a write: the byte written inside the range, what was there outside it. -/
theorem Memory.lookup_write (m : Memory) (a : Nat) (bs : List Byte) (x : Nat) :
    (m.write a bs).lookup x
      = if a ≤ x ∧ x < a + bs.length then bs[x - a]? else m.lookup x := by
  by_cases hb : bs = []
  · have h : ¬ (a ≤ x ∧ x < a) := by omega
    simp [Memory.write, hb, h]
  · simp only [Memory.write, hb, if_false, Memory.lookup_append, lookup_cellsFrom,
      Memory.lookup_filter m (fun k => decide (k < a)),
      Memory.lookup_filter m (fun k => decide (a + bs.length ≤ k)), decide_eq_true_eq]
    by_cases h1 : a ≤ x
    · have h0 : ¬ x < a := by omega
      by_cases h2 : x < a + bs.length
      · have h3 : x - a < bs.length := by omega
        simp [h0, h1, h2, List.getElem?_eq_getElem h3]
      · have h3 : bs.length ≤ x - a := by omega
        have h4 : a + bs.length ≤ x := by omega
        simp [h0, h1, h2, h4, List.getElem?_eq_none h3]
    · have h0 : x < a := by omega
      have h4 : ¬ a + bs.length ≤ x := by omega
      simp [h0, h1, h4]

theorem Memory.lookup_write_inside (m : Memory) (a : Nat) (bs : List Byte) (i : Nat)
    (h : i < bs.length) : (m.write a bs).lookup (a + i) = some bs[i] := by
  simp [Memory.lookup_write, h]

theorem Memory.lookup_write_outside (m : Memory) (a : Nat) (bs : List Byte) (x : Nat)
    (h : x < a ∨ a + bs.length ≤ x) : (m.write a bs).lookup x = m.lookup x := by
  rw [Memory.lookup_write, if_neg (by omega)]

@[simp] theorem Memory.write_nil (m : Memory) (a : Nat) : m.write a [] = m := by simp [Memory.write]

theorem mem_cellsFrom (bs : List Byte) (a : Nat) (c : Host.Cell) (h : c ∈ cellsFrom a bs) :
    a ≤ c.1 ∧ c.1 < a + bs.length := by
  induction bs generalizing a with
  | nil => simp at h
  | cons b bs ih =>
    rw [cellsFrom_cons, List.mem_cons] at h
    rcases h with rfl | h
    · simp
    · have := ih (a + 1) h
      simp only [List.length_cons]
      omega

theorem cellsFrom_rising (bs : List Byte) (a : Nat) :
    (cellsFrom a bs).Pairwise (fun x y => x.1 < y.1) := by
  induction bs generalizing a with
  | nil => simp
  | cons b bs ih =>
    rw [cellsFrom_cons, List.pairwise_cons]
    exact ⟨fun c hc => (mem_cellsFrom bs (a + 1) c hc).1, ih (a + 1)⟩

/-- Every write inside the address space keeps the canonical form. -/
theorem Memory.write_wfBelow (size : Nat) (m : Memory) (a : Nat) (bs : List Byte)
    (hm : m.wfBelow size) (hs : bs = [] ∨ a + bs.length ≤ size) : (m.write a bs).wfBelow size := by
  obtain ⟨hp, hlt⟩ := hm
  by_cases hb : bs = []
  · simpa [hb] using ⟨hp, hlt⟩
  · have hs' : a + bs.length ≤ size := by tauto
    simp only [Memory.write, hb, if_false]
    refine ⟨?_, ?_⟩
    · rw [List.pairwise_append, List.pairwise_append]
      refine ⟨⟨hp.filter _, cellsFrom_rising bs a, ?_⟩, hp.filter _, ?_⟩
      · intro c hc d hd
        have h1 := mem_cellsFrom bs a d hd
        simp only [List.mem_filter, decide_eq_true_eq] at hc
        omega
      · intro c hc d hd
        simp only [List.mem_filter, decide_eq_true_eq] at hd
        simp only [List.mem_append, List.mem_filter, decide_eq_true_eq] at hc
        rcases hc with hc | hc
        · omega
        · have h1 := mem_cellsFrom bs a c hc
          omega
    · intro c hc
      simp only [List.mem_append, List.mem_filter, decide_eq_true_eq] at hc
      rcases hc with (hc | hc) | hc
      · exact hlt c hc.1
      · have h1 := mem_cellsFrom bs a c hc
        omega
      · exact hlt c hc.1

theorem Memory.wfBelow_nil (size : Nat) : Memory.wfBelow size [] := ⟨List.Pairwise.nil, by simp⟩

end Sys2Proof.Machine
end

