-- ==== Sys2Proof/Laws/State.lean ====
section
/-! SUPPORT. What each named update of the state leaves in each field, one lemma per field, so that no
proof unfolds a record update. -/

namespace Sys2Proof.Machine

/-! ### complete -/

@[simp] theorem State.complete_irqEn (s : State) (l : Latch) (e : ErrorKind) (r : Word) :
    (s.complete l e r).irqEn = s.irqEn := rfl
@[simp] theorem State.complete_busy (s : State) (l : Latch) (e : ErrorKind) (r : Word) :
    (s.complete l e r).busy = false := rfl
@[simp] theorem State.complete_done (s : State) (l : Latch) (e : ErrorKind) (r : Word) :
    (s.complete l e r).done = true := rfl
@[simp] theorem State.complete_overrun (s : State) (l : Latch) (e : ErrorKind) (r : Word) :
    (s.complete l e r).overrun = s.overrun := rfl
@[simp] theorem State.complete_accessErr (s : State) (l : Latch) (e : ErrorKind) (r : Word) :
    (s.complete l e r).accessErr = s.accessErr := rfl
@[simp] theorem State.complete_err (s : State) (l : Latch) (e : ErrorKind) (r : Word) :
    (s.complete l e r).err = e.code := rfl
@[simp] theorem State.complete_lastCmd (s : State) (l : Latch) (e : ErrorKind) (r : Word) :
    (s.complete l e r).lastCmd = l.cmd := rfl
@[simp] theorem State.complete_typeReg (s : State) (l : Latch) (e : ErrorKind) (r : Word) :
    (s.complete l e r).typeReg = s.typeReg := rfl
@[simp] theorem State.complete_srcAddr (s : State) (l : Latch) (e : ErrorKind) (r : Word) :
    (s.complete l e r).srcAddr = s.srcAddr := rfl
@[simp] theorem State.complete_srcLen (s : State) (l : Latch) (e : ErrorKind) (r : Word) :
    (s.complete l e r).srcLen = s.srcLen := rfl
@[simp] theorem State.complete_dstAddr (s : State) (l : Latch) (e : ErrorKind) (r : Word) :
    (s.complete l e r).dstAddr = s.dstAddr := rfl
@[simp] theorem State.complete_dstCap (s : State) (l : Latch) (e : ErrorKind) (r : Word) :
    (s.complete l e r).dstCap = s.dstCap := rfl
@[simp] theorem State.complete_result (s : State) (l : Latch) (e : ErrorKind) (r : Word) :
    (s.complete l e r).result = r := rfl
@[simp] theorem State.complete_crcOut (s : State) (l : Latch) (e : ErrorKind) (r : Word) :
    (s.complete l e r).crcOut = s.crcOut := rfl
@[simp] theorem State.complete_crcRcvd (s : State) (l : Latch) (e : ErrorKind) (r : Word) :
    (s.complete l e r).crcRcvd = s.crcRcvd := rfl
@[simp] theorem State.complete_slots (s : State) (l : Latch) (e : ErrorKind) (r : Word) :
    (s.complete l e r).slots = s.slots := rfl
@[simp] theorem State.complete_latch (s : State) (l : Latch) (e : ErrorKind) (r : Word) :
    (s.complete l e r).latch = none := rfl
@[simp] theorem State.complete_mem (s : State) (l : Latch) (e : ErrorKind) (r : Word) :
    (s.complete l e r).mem = s.mem := rfl
@[simp] theorem State.complete_program (s : State) (l : Latch) (e : ErrorKind) (r : Word) :
    (s.complete l e r).program = s.program := rfl
@[simp] theorem State.complete_reads (s : State) (l : Latch) (e : ErrorKind) (r : Word) :
    (s.complete l e r).reads = s.reads := rfl
@[simp] theorem State.complete_platform (s : State) (l : Latch) (e : ErrorKind) (r : Word) :
    (s.complete l e r).platform = s.platform := rfl
@[simp] theorem State.complete_delay (s : State) (l : Latch) (e : ErrorKind) (r : Word) :
    (s.complete l e r).delay = s.delay := rfl
@[simp] theorem State.complete_schedule (s : State) (l : Latch) (e : ErrorKind) (r : Word) :
    (s.complete l e r).schedule = s.schedule := rfl
@[simp] theorem State.complete_draws (s : State) (l : Latch) (e : ErrorKind) (r : Word) :
    (s.complete l e r).draws = s.draws := rfl

/-! ### setSlot -/

@[simp] theorem State.setSlot_irqEn (s : State) (k : Fin Config.numSlots) (x : Slot) :
    (s.setSlot k x).irqEn = s.irqEn := rfl
@[simp] theorem State.setSlot_busy (s : State) (k : Fin Config.numSlots) (x : Slot) :
    (s.setSlot k x).busy = s.busy := rfl
@[simp] theorem State.setSlot_done (s : State) (k : Fin Config.numSlots) (x : Slot) :
    (s.setSlot k x).done = s.done := rfl
@[simp] theorem State.setSlot_overrun (s : State) (k : Fin Config.numSlots) (x : Slot) :
    (s.setSlot k x).overrun = s.overrun := rfl
@[simp] theorem State.setSlot_accessErr (s : State) (k : Fin Config.numSlots) (x : Slot) :
    (s.setSlot k x).accessErr = s.accessErr := rfl
@[simp] theorem State.setSlot_err (s : State) (k : Fin Config.numSlots) (x : Slot) :
    (s.setSlot k x).err = s.err := rfl
@[simp] theorem State.setSlot_lastCmd (s : State) (k : Fin Config.numSlots) (x : Slot) :
    (s.setSlot k x).lastCmd = s.lastCmd := rfl
@[simp] theorem State.setSlot_typeReg (s : State) (k : Fin Config.numSlots) (x : Slot) :
    (s.setSlot k x).typeReg = s.typeReg := rfl
@[simp] theorem State.setSlot_srcAddr (s : State) (k : Fin Config.numSlots) (x : Slot) :
    (s.setSlot k x).srcAddr = s.srcAddr := rfl
@[simp] theorem State.setSlot_srcLen (s : State) (k : Fin Config.numSlots) (x : Slot) :
    (s.setSlot k x).srcLen = s.srcLen := rfl
@[simp] theorem State.setSlot_dstAddr (s : State) (k : Fin Config.numSlots) (x : Slot) :
    (s.setSlot k x).dstAddr = s.dstAddr := rfl
@[simp] theorem State.setSlot_dstCap (s : State) (k : Fin Config.numSlots) (x : Slot) :
    (s.setSlot k x).dstCap = s.dstCap := rfl
@[simp] theorem State.setSlot_result (s : State) (k : Fin Config.numSlots) (x : Slot) :
    (s.setSlot k x).result = s.result := rfl
@[simp] theorem State.setSlot_crcOut (s : State) (k : Fin Config.numSlots) (x : Slot) :
    (s.setSlot k x).crcOut = s.crcOut := rfl
@[simp] theorem State.setSlot_crcRcvd (s : State) (k : Fin Config.numSlots) (x : Slot) :
    (s.setSlot k x).crcRcvd = s.crcRcvd := rfl
@[simp] theorem State.setSlot_slots (s : State) (k : Fin Config.numSlots) (x : Slot) :
    (s.setSlot k x).slots = s.slots.set k x := rfl
@[simp] theorem State.setSlot_latch (s : State) (k : Fin Config.numSlots) (x : Slot) :
    (s.setSlot k x).latch = s.latch := rfl
@[simp] theorem State.setSlot_mem (s : State) (k : Fin Config.numSlots) (x : Slot) :
    (s.setSlot k x).mem = s.mem := rfl
@[simp] theorem State.setSlot_program (s : State) (k : Fin Config.numSlots) (x : Slot) :
    (s.setSlot k x).program = s.program := rfl
@[simp] theorem State.setSlot_reads (s : State) (k : Fin Config.numSlots) (x : Slot) :
    (s.setSlot k x).reads = s.reads := rfl
@[simp] theorem State.setSlot_platform (s : State) (k : Fin Config.numSlots) (x : Slot) :
    (s.setSlot k x).platform = s.platform := rfl
@[simp] theorem State.setSlot_delay (s : State) (k : Fin Config.numSlots) (x : Slot) :
    (s.setSlot k x).delay = s.delay := rfl
@[simp] theorem State.setSlot_schedule (s : State) (k : Fin Config.numSlots) (x : Slot) :
    (s.setSlot k x).schedule = s.schedule := rfl
@[simp] theorem State.setSlot_draws (s : State) (k : Fin Config.numSlots) (x : Slot) :
    (s.setSlot k x).draws = s.draws := rfl

/-! ### setRecord -/

@[simp] theorem State.setRecord_irqEn (s : State) (k : Fin Config.numSlots) (f : Bool) (t n : Word) :
    (s.setRecord k f t n).irqEn = s.irqEn := rfl
@[simp] theorem State.setRecord_busy (s : State) (k : Fin Config.numSlots) (f : Bool) (t n : Word) :
    (s.setRecord k f t n).busy = s.busy := rfl
@[simp] theorem State.setRecord_done (s : State) (k : Fin Config.numSlots) (f : Bool) (t n : Word) :
    (s.setRecord k f t n).done = s.done := rfl
@[simp] theorem State.setRecord_overrun (s : State) (k : Fin Config.numSlots) (f : Bool) (t n : Word) :
    (s.setRecord k f t n).overrun = s.overrun := rfl
@[simp] theorem State.setRecord_accessErr (s : State) (k : Fin Config.numSlots) (f : Bool) (t n : Word) :
    (s.setRecord k f t n).accessErr = s.accessErr := rfl
@[simp] theorem State.setRecord_err (s : State) (k : Fin Config.numSlots) (f : Bool) (t n : Word) :
    (s.setRecord k f t n).err = s.err := rfl
@[simp] theorem State.setRecord_lastCmd (s : State) (k : Fin Config.numSlots) (f : Bool) (t n : Word) :
    (s.setRecord k f t n).lastCmd = s.lastCmd := rfl
@[simp] theorem State.setRecord_typeReg (s : State) (k : Fin Config.numSlots) (f : Bool) (t n : Word) :
    (s.setRecord k f t n).typeReg = s.typeReg := rfl
@[simp] theorem State.setRecord_srcAddr (s : State) (k : Fin Config.numSlots) (f : Bool) (t n : Word) :
    (s.setRecord k f t n).srcAddr = s.srcAddr := rfl
@[simp] theorem State.setRecord_srcLen (s : State) (k : Fin Config.numSlots) (f : Bool) (t n : Word) :
    (s.setRecord k f t n).srcLen = s.srcLen := rfl
@[simp] theorem State.setRecord_dstAddr (s : State) (k : Fin Config.numSlots) (f : Bool) (t n : Word) :
    (s.setRecord k f t n).dstAddr = s.dstAddr := rfl
@[simp] theorem State.setRecord_dstCap (s : State) (k : Fin Config.numSlots) (f : Bool) (t n : Word) :
    (s.setRecord k f t n).dstCap = s.dstCap := rfl
@[simp] theorem State.setRecord_result (s : State) (k : Fin Config.numSlots) (f : Bool) (t n : Word) :
    (s.setRecord k f t n).result = s.result := rfl
@[simp] theorem State.setRecord_crcOut (s : State) (k : Fin Config.numSlots) (f : Bool) (t n : Word) :
    (s.setRecord k f t n).crcOut = s.crcOut := rfl
@[simp] theorem State.setRecord_crcRcvd (s : State) (k : Fin Config.numSlots) (f : Bool) (t n : Word) :
    (s.setRecord k f t n).crcRcvd = s.crcRcvd := rfl
@[simp] theorem State.setRecord_latch (s : State) (k : Fin Config.numSlots) (f : Bool) (t n : Word) :
    (s.setRecord k f t n).latch = s.latch := rfl
@[simp] theorem State.setRecord_mem (s : State) (k : Fin Config.numSlots) (f : Bool) (t n : Word) :
    (s.setRecord k f t n).mem = s.mem := rfl
@[simp] theorem State.setRecord_program (s : State) (k : Fin Config.numSlots) (f : Bool) (t n : Word) :
    (s.setRecord k f t n).program = s.program := rfl
@[simp] theorem State.setRecord_reads (s : State) (k : Fin Config.numSlots) (f : Bool) (t n : Word) :
    (s.setRecord k f t n).reads = s.reads := rfl
@[simp] theorem State.setRecord_platform (s : State) (k : Fin Config.numSlots) (f : Bool) (t n : Word) :
    (s.setRecord k f t n).platform = s.platform := rfl
@[simp] theorem State.setRecord_delay (s : State) (k : Fin Config.numSlots) (f : Bool) (t n : Word) :
    (s.setRecord k f t n).delay = s.delay := rfl
@[simp] theorem State.setRecord_schedule (s : State) (k : Fin Config.numSlots) (f : Bool) (t n : Word) :
    (s.setRecord k f t n).schedule = s.schedule := rfl
@[simp] theorem State.setRecord_draws (s : State) (k : Fin Config.numSlots) (f : Bool) (t n : Word) :
    (s.setRecord k f t n).draws = s.draws := rfl

/-! ### writeRam -/

@[simp] theorem State.writeRam_irqEn (s : State) (k : Fin Config.numSlots) (o : Nat) (bs : List Byte) :
    (s.writeRam k o bs).irqEn = s.irqEn := rfl
@[simp] theorem State.writeRam_busy (s : State) (k : Fin Config.numSlots) (o : Nat) (bs : List Byte) :
    (s.writeRam k o bs).busy = s.busy := rfl
@[simp] theorem State.writeRam_done (s : State) (k : Fin Config.numSlots) (o : Nat) (bs : List Byte) :
    (s.writeRam k o bs).done = s.done := rfl
@[simp] theorem State.writeRam_overrun (s : State) (k : Fin Config.numSlots) (o : Nat) (bs : List Byte) :
    (s.writeRam k o bs).overrun = s.overrun := rfl
@[simp] theorem State.writeRam_accessErr (s : State) (k : Fin Config.numSlots) (o : Nat) (bs : List Byte) :
    (s.writeRam k o bs).accessErr = s.accessErr := rfl
@[simp] theorem State.writeRam_err (s : State) (k : Fin Config.numSlots) (o : Nat) (bs : List Byte) :
    (s.writeRam k o bs).err = s.err := rfl
@[simp] theorem State.writeRam_lastCmd (s : State) (k : Fin Config.numSlots) (o : Nat) (bs : List Byte) :
    (s.writeRam k o bs).lastCmd = s.lastCmd := rfl
@[simp] theorem State.writeRam_typeReg (s : State) (k : Fin Config.numSlots) (o : Nat) (bs : List Byte) :
    (s.writeRam k o bs).typeReg = s.typeReg := rfl
@[simp] theorem State.writeRam_srcAddr (s : State) (k : Fin Config.numSlots) (o : Nat) (bs : List Byte) :
    (s.writeRam k o bs).srcAddr = s.srcAddr := rfl
@[simp] theorem State.writeRam_srcLen (s : State) (k : Fin Config.numSlots) (o : Nat) (bs : List Byte) :
    (s.writeRam k o bs).srcLen = s.srcLen := rfl
@[simp] theorem State.writeRam_dstAddr (s : State) (k : Fin Config.numSlots) (o : Nat) (bs : List Byte) :
    (s.writeRam k o bs).dstAddr = s.dstAddr := rfl
@[simp] theorem State.writeRam_dstCap (s : State) (k : Fin Config.numSlots) (o : Nat) (bs : List Byte) :
    (s.writeRam k o bs).dstCap = s.dstCap := rfl
@[simp] theorem State.writeRam_result (s : State) (k : Fin Config.numSlots) (o : Nat) (bs : List Byte) :
    (s.writeRam k o bs).result = s.result := rfl
@[simp] theorem State.writeRam_crcOut (s : State) (k : Fin Config.numSlots) (o : Nat) (bs : List Byte) :
    (s.writeRam k o bs).crcOut = s.crcOut := rfl
@[simp] theorem State.writeRam_crcRcvd (s : State) (k : Fin Config.numSlots) (o : Nat) (bs : List Byte) :
    (s.writeRam k o bs).crcRcvd = s.crcRcvd := rfl
@[simp] theorem State.writeRam_latch (s : State) (k : Fin Config.numSlots) (o : Nat) (bs : List Byte) :
    (s.writeRam k o bs).latch = s.latch := rfl
@[simp] theorem State.writeRam_mem (s : State) (k : Fin Config.numSlots) (o : Nat) (bs : List Byte) :
    (s.writeRam k o bs).mem = s.mem := rfl
@[simp] theorem State.writeRam_program (s : State) (k : Fin Config.numSlots) (o : Nat) (bs : List Byte) :
    (s.writeRam k o bs).program = s.program := rfl
@[simp] theorem State.writeRam_reads (s : State) (k : Fin Config.numSlots) (o : Nat) (bs : List Byte) :
    (s.writeRam k o bs).reads = s.reads := rfl
@[simp] theorem State.writeRam_platform (s : State) (k : Fin Config.numSlots) (o : Nat) (bs : List Byte) :
    (s.writeRam k o bs).platform = s.platform := rfl
@[simp] theorem State.writeRam_delay (s : State) (k : Fin Config.numSlots) (o : Nat) (bs : List Byte) :
    (s.writeRam k o bs).delay = s.delay := rfl
@[simp] theorem State.writeRam_schedule (s : State) (k : Fin Config.numSlots) (o : Nat) (bs : List Byte) :
    (s.writeRam k o bs).schedule = s.schedule := rfl
@[simp] theorem State.writeRam_draws (s : State) (k : Fin Config.numSlots) (o : Nat) (bs : List Byte) :
    (s.writeRam k o bs).draws = s.draws := rfl

/-! ### writeMem -/

@[simp] theorem State.writeMem_irqEn (s : State) (a : Nat) (bs : List Byte) :
    (s.writeMem a bs).irqEn = s.irqEn := rfl
@[simp] theorem State.writeMem_busy (s : State) (a : Nat) (bs : List Byte) :
    (s.writeMem a bs).busy = s.busy := rfl
@[simp] theorem State.writeMem_done (s : State) (a : Nat) (bs : List Byte) :
    (s.writeMem a bs).done = s.done := rfl
@[simp] theorem State.writeMem_overrun (s : State) (a : Nat) (bs : List Byte) :
    (s.writeMem a bs).overrun = s.overrun := rfl
@[simp] theorem State.writeMem_accessErr (s : State) (a : Nat) (bs : List Byte) :
    (s.writeMem a bs).accessErr = s.accessErr := rfl
@[simp] theorem State.writeMem_err (s : State) (a : Nat) (bs : List Byte) :
    (s.writeMem a bs).err = s.err := rfl
@[simp] theorem State.writeMem_lastCmd (s : State) (a : Nat) (bs : List Byte) :
    (s.writeMem a bs).lastCmd = s.lastCmd := rfl
@[simp] theorem State.writeMem_typeReg (s : State) (a : Nat) (bs : List Byte) :
    (s.writeMem a bs).typeReg = s.typeReg := rfl
@[simp] theorem State.writeMem_srcAddr (s : State) (a : Nat) (bs : List Byte) :
    (s.writeMem a bs).srcAddr = s.srcAddr := rfl
@[simp] theorem State.writeMem_srcLen (s : State) (a : Nat) (bs : List Byte) :
    (s.writeMem a bs).srcLen = s.srcLen := rfl
@[simp] theorem State.writeMem_dstAddr (s : State) (a : Nat) (bs : List Byte) :
    (s.writeMem a bs).dstAddr = s.dstAddr := rfl
@[simp] theorem State.writeMem_dstCap (s : State) (a : Nat) (bs : List Byte) :
    (s.writeMem a bs).dstCap = s.dstCap := rfl
@[simp] theorem State.writeMem_result (s : State) (a : Nat) (bs : List Byte) :
    (s.writeMem a bs).result = s.result := rfl
@[simp] theorem State.writeMem_crcOut (s : State) (a : Nat) (bs : List Byte) :
    (s.writeMem a bs).crcOut = s.crcOut := rfl
@[simp] theorem State.writeMem_crcRcvd (s : State) (a : Nat) (bs : List Byte) :
    (s.writeMem a bs).crcRcvd = s.crcRcvd := rfl
@[simp] theorem State.writeMem_slots (s : State) (a : Nat) (bs : List Byte) :
    (s.writeMem a bs).slots = s.slots := rfl
@[simp] theorem State.writeMem_latch (s : State) (a : Nat) (bs : List Byte) :
    (s.writeMem a bs).latch = s.latch := rfl
@[simp] theorem State.writeMem_mem (s : State) (a : Nat) (bs : List Byte) :
    (s.writeMem a bs).mem = s.mem.write a bs := rfl
@[simp] theorem State.writeMem_program (s : State) (a : Nat) (bs : List Byte) :
    (s.writeMem a bs).program = s.program := rfl
@[simp] theorem State.writeMem_reads (s : State) (a : Nat) (bs : List Byte) :
    (s.writeMem a bs).reads = s.reads := rfl
@[simp] theorem State.writeMem_platform (s : State) (a : Nat) (bs : List Byte) :
    (s.writeMem a bs).platform = s.platform := rfl
@[simp] theorem State.writeMem_delay (s : State) (a : Nat) (bs : List Byte) :
    (s.writeMem a bs).delay = s.delay := rfl
@[simp] theorem State.writeMem_schedule (s : State) (a : Nat) (bs : List Byte) :
    (s.writeMem a bs).schedule = s.schedule := rfl
@[simp] theorem State.writeMem_draws (s : State) (a : Nat) (bs : List Byte) :
    (s.writeMem a bs).draws = s.draws := rfl

/-! ### drew -/

@[simp] theorem State.drew_irqEn (s : State) (n : Nat) :
    (s.drew n).irqEn = s.irqEn := rfl
@[simp] theorem State.drew_busy (s : State) (n : Nat) :
    (s.drew n).busy = s.busy := rfl
@[simp] theorem State.drew_done (s : State) (n : Nat) :
    (s.drew n).done = s.done := rfl
@[simp] theorem State.drew_overrun (s : State) (n : Nat) :
    (s.drew n).overrun = s.overrun := rfl
@[simp] theorem State.drew_accessErr (s : State) (n : Nat) :
    (s.drew n).accessErr = s.accessErr := rfl
@[simp] theorem State.drew_err (s : State) (n : Nat) :
    (s.drew n).err = s.err := rfl
@[simp] theorem State.drew_lastCmd (s : State) (n : Nat) :
    (s.drew n).lastCmd = s.lastCmd := rfl
@[simp] theorem State.drew_typeReg (s : State) (n : Nat) :
    (s.drew n).typeReg = s.typeReg := rfl
@[simp] theorem State.drew_srcAddr (s : State) (n : Nat) :
    (s.drew n).srcAddr = s.srcAddr := rfl
@[simp] theorem State.drew_srcLen (s : State) (n : Nat) :
    (s.drew n).srcLen = s.srcLen := rfl
@[simp] theorem State.drew_dstAddr (s : State) (n : Nat) :
    (s.drew n).dstAddr = s.dstAddr := rfl
@[simp] theorem State.drew_dstCap (s : State) (n : Nat) :
    (s.drew n).dstCap = s.dstCap := rfl
@[simp] theorem State.drew_result (s : State) (n : Nat) :
    (s.drew n).result = s.result := rfl
@[simp] theorem State.drew_crcOut (s : State) (n : Nat) :
    (s.drew n).crcOut = s.crcOut := rfl
@[simp] theorem State.drew_crcRcvd (s : State) (n : Nat) :
    (s.drew n).crcRcvd = s.crcRcvd := rfl
@[simp] theorem State.drew_slots (s : State) (n : Nat) :
    (s.drew n).slots = s.slots := rfl
@[simp] theorem State.drew_latch (s : State) (n : Nat) :
    (s.drew n).latch = s.latch := rfl
@[simp] theorem State.drew_mem (s : State) (n : Nat) :
    (s.drew n).mem = s.mem := rfl
@[simp] theorem State.drew_program (s : State) (n : Nat) :
    (s.drew n).program = s.program := rfl
@[simp] theorem State.drew_reads (s : State) (n : Nat) :
    (s.drew n).reads = s.reads := rfl
@[simp] theorem State.drew_platform (s : State) (n : Nat) :
    (s.drew n).platform = s.platform := rfl
@[simp] theorem State.drew_delay (s : State) (n : Nat) :
    (s.drew n).delay = s.delay := rfl
@[simp] theorem State.drew_schedule (s : State) (n : Nat) :
    (s.drew n).schedule = s.schedule := rfl
@[simp] theorem State.drew_draws (s : State) (n : Nat) :
    (s.drew n).draws = s.draws + n := rfl

/-! ### setCrcOut -/

@[simp] theorem State.setCrcOut_irqEn (s : State) (v : Word) :
    (s.setCrcOut v).irqEn = s.irqEn := rfl
@[simp] theorem State.setCrcOut_busy (s : State) (v : Word) :
    (s.setCrcOut v).busy = s.busy := rfl
@[simp] theorem State.setCrcOut_done (s : State) (v : Word) :
    (s.setCrcOut v).done = s.done := rfl
@[simp] theorem State.setCrcOut_overrun (s : State) (v : Word) :
    (s.setCrcOut v).overrun = s.overrun := rfl
@[simp] theorem State.setCrcOut_accessErr (s : State) (v : Word) :
    (s.setCrcOut v).accessErr = s.accessErr := rfl
@[simp] theorem State.setCrcOut_err (s : State) (v : Word) :
    (s.setCrcOut v).err = s.err := rfl
@[simp] theorem State.setCrcOut_lastCmd (s : State) (v : Word) :
    (s.setCrcOut v).lastCmd = s.lastCmd := rfl
@[simp] theorem State.setCrcOut_typeReg (s : State) (v : Word) :
    (s.setCrcOut v).typeReg = s.typeReg := rfl
@[simp] theorem State.setCrcOut_srcAddr (s : State) (v : Word) :
    (s.setCrcOut v).srcAddr = s.srcAddr := rfl
@[simp] theorem State.setCrcOut_srcLen (s : State) (v : Word) :
    (s.setCrcOut v).srcLen = s.srcLen := rfl
@[simp] theorem State.setCrcOut_dstAddr (s : State) (v : Word) :
    (s.setCrcOut v).dstAddr = s.dstAddr := rfl
@[simp] theorem State.setCrcOut_dstCap (s : State) (v : Word) :
    (s.setCrcOut v).dstCap = s.dstCap := rfl
@[simp] theorem State.setCrcOut_result (s : State) (v : Word) :
    (s.setCrcOut v).result = s.result := rfl
@[simp] theorem State.setCrcOut_crcOut (s : State) (v : Word) :
    (s.setCrcOut v).crcOut = v := rfl
@[simp] theorem State.setCrcOut_crcRcvd (s : State) (v : Word) :
    (s.setCrcOut v).crcRcvd = s.crcRcvd := rfl
@[simp] theorem State.setCrcOut_slots (s : State) (v : Word) :
    (s.setCrcOut v).slots = s.slots := rfl
@[simp] theorem State.setCrcOut_latch (s : State) (v : Word) :
    (s.setCrcOut v).latch = s.latch := rfl
@[simp] theorem State.setCrcOut_mem (s : State) (v : Word) :
    (s.setCrcOut v).mem = s.mem := rfl
@[simp] theorem State.setCrcOut_program (s : State) (v : Word) :
    (s.setCrcOut v).program = s.program := rfl
@[simp] theorem State.setCrcOut_reads (s : State) (v : Word) :
    (s.setCrcOut v).reads = s.reads := rfl
@[simp] theorem State.setCrcOut_platform (s : State) (v : Word) :
    (s.setCrcOut v).platform = s.platform := rfl
@[simp] theorem State.setCrcOut_delay (s : State) (v : Word) :
    (s.setCrcOut v).delay = s.delay := rfl
@[simp] theorem State.setCrcOut_schedule (s : State) (v : Word) :
    (s.setCrcOut v).schedule = s.schedule := rfl
@[simp] theorem State.setCrcOut_draws (s : State) (v : Word) :
    (s.setCrcOut v).draws = s.draws := rfl

/-! ### setCrcRcvd -/

@[simp] theorem State.setCrcRcvd_irqEn (s : State) (v : Word) :
    (s.setCrcRcvd v).irqEn = s.irqEn := rfl
@[simp] theorem State.setCrcRcvd_busy (s : State) (v : Word) :
    (s.setCrcRcvd v).busy = s.busy := rfl
@[simp] theorem State.setCrcRcvd_done (s : State) (v : Word) :
    (s.setCrcRcvd v).done = s.done := rfl
@[simp] theorem State.setCrcRcvd_overrun (s : State) (v : Word) :
    (s.setCrcRcvd v).overrun = s.overrun := rfl
@[simp] theorem State.setCrcRcvd_accessErr (s : State) (v : Word) :
    (s.setCrcRcvd v).accessErr = s.accessErr := rfl
@[simp] theorem State.setCrcRcvd_err (s : State) (v : Word) :
    (s.setCrcRcvd v).err = s.err := rfl
@[simp] theorem State.setCrcRcvd_lastCmd (s : State) (v : Word) :
    (s.setCrcRcvd v).lastCmd = s.lastCmd := rfl
@[simp] theorem State.setCrcRcvd_typeReg (s : State) (v : Word) :
    (s.setCrcRcvd v).typeReg = s.typeReg := rfl
@[simp] theorem State.setCrcRcvd_srcAddr (s : State) (v : Word) :
    (s.setCrcRcvd v).srcAddr = s.srcAddr := rfl
@[simp] theorem State.setCrcRcvd_srcLen (s : State) (v : Word) :
    (s.setCrcRcvd v).srcLen = s.srcLen := rfl
@[simp] theorem State.setCrcRcvd_dstAddr (s : State) (v : Word) :
    (s.setCrcRcvd v).dstAddr = s.dstAddr := rfl
@[simp] theorem State.setCrcRcvd_dstCap (s : State) (v : Word) :
    (s.setCrcRcvd v).dstCap = s.dstCap := rfl
@[simp] theorem State.setCrcRcvd_result (s : State) (v : Word) :
    (s.setCrcRcvd v).result = s.result := rfl
@[simp] theorem State.setCrcRcvd_crcOut (s : State) (v : Word) :
    (s.setCrcRcvd v).crcOut = s.crcOut := rfl
@[simp] theorem State.setCrcRcvd_crcRcvd (s : State) (v : Word) :
    (s.setCrcRcvd v).crcRcvd = v := rfl
@[simp] theorem State.setCrcRcvd_slots (s : State) (v : Word) :
    (s.setCrcRcvd v).slots = s.slots := rfl
@[simp] theorem State.setCrcRcvd_latch (s : State) (v : Word) :
    (s.setCrcRcvd v).latch = s.latch := rfl
@[simp] theorem State.setCrcRcvd_mem (s : State) (v : Word) :
    (s.setCrcRcvd v).mem = s.mem := rfl
@[simp] theorem State.setCrcRcvd_program (s : State) (v : Word) :
    (s.setCrcRcvd v).program = s.program := rfl
@[simp] theorem State.setCrcRcvd_reads (s : State) (v : Word) :
    (s.setCrcRcvd v).reads = s.reads := rfl
@[simp] theorem State.setCrcRcvd_platform (s : State) (v : Word) :
    (s.setCrcRcvd v).platform = s.platform := rfl
@[simp] theorem State.setCrcRcvd_delay (s : State) (v : Word) :
    (s.setCrcRcvd v).delay = s.delay := rfl
@[simp] theorem State.setCrcRcvd_schedule (s : State) (v : Word) :
    (s.setCrcRcvd v).schedule = s.schedule := rfl
@[simp] theorem State.setCrcRcvd_draws (s : State) (v : Word) :
    (s.setCrcRcvd v).draws = s.draws := rfl

/-! ### flagAccessErr -/

@[simp] theorem State.flagAccessErr_irqEn (s : State) :
    (s.flagAccessErr).irqEn = s.irqEn := rfl
@[simp] theorem State.flagAccessErr_busy (s : State) :
    (s.flagAccessErr).busy = s.busy := rfl
@[simp] theorem State.flagAccessErr_done (s : State) :
    (s.flagAccessErr).done = s.done := rfl
@[simp] theorem State.flagAccessErr_overrun (s : State) :
    (s.flagAccessErr).overrun = s.overrun := rfl
@[simp] theorem State.flagAccessErr_accessErr (s : State) :
    (s.flagAccessErr).accessErr = true := rfl
@[simp] theorem State.flagAccessErr_err (s : State) :
    (s.flagAccessErr).err = s.err := rfl
@[simp] theorem State.flagAccessErr_lastCmd (s : State) :
    (s.flagAccessErr).lastCmd = s.lastCmd := rfl
@[simp] theorem State.flagAccessErr_typeReg (s : State) :
    (s.flagAccessErr).typeReg = s.typeReg := rfl
@[simp] theorem State.flagAccessErr_srcAddr (s : State) :
    (s.flagAccessErr).srcAddr = s.srcAddr := rfl
@[simp] theorem State.flagAccessErr_srcLen (s : State) :
    (s.flagAccessErr).srcLen = s.srcLen := rfl
@[simp] theorem State.flagAccessErr_dstAddr (s : State) :
    (s.flagAccessErr).dstAddr = s.dstAddr := rfl
@[simp] theorem State.flagAccessErr_dstCap (s : State) :
    (s.flagAccessErr).dstCap = s.dstCap := rfl
@[simp] theorem State.flagAccessErr_result (s : State) :
    (s.flagAccessErr).result = s.result := rfl
@[simp] theorem State.flagAccessErr_crcOut (s : State) :
    (s.flagAccessErr).crcOut = s.crcOut := rfl
@[simp] theorem State.flagAccessErr_crcRcvd (s : State) :
    (s.flagAccessErr).crcRcvd = s.crcRcvd := rfl
@[simp] theorem State.flagAccessErr_slots (s : State) :
    (s.flagAccessErr).slots = s.slots := rfl
@[simp] theorem State.flagAccessErr_latch (s : State) :
    (s.flagAccessErr).latch = s.latch := rfl
@[simp] theorem State.flagAccessErr_mem (s : State) :
    (s.flagAccessErr).mem = s.mem := rfl
@[simp] theorem State.flagAccessErr_program (s : State) :
    (s.flagAccessErr).program = s.program := rfl
@[simp] theorem State.flagAccessErr_reads (s : State) :
    (s.flagAccessErr).reads = s.reads := rfl
@[simp] theorem State.flagAccessErr_platform (s : State) :
    (s.flagAccessErr).platform = s.platform := rfl
@[simp] theorem State.flagAccessErr_delay (s : State) :
    (s.flagAccessErr).delay = s.delay := rfl
@[simp] theorem State.flagAccessErr_schedule (s : State) :
    (s.flagAccessErr).schedule = s.schedule := rfl
@[simp] theorem State.flagAccessErr_draws (s : State) :
    (s.flagAccessErr).draws = s.draws := rfl

/-! ### clearStatus -/

@[simp] theorem State.clearStatus_irqEn (s : State) (v : Word) :
    (s.clearStatus v).irqEn = s.irqEn := rfl
@[simp] theorem State.clearStatus_busy (s : State) (v : Word) :
    (s.clearStatus v).busy = s.busy := rfl
@[simp] theorem State.clearStatus_done (s : State) (v : Word) :
    (s.clearStatus v).done = (s.done && !v[1]) := rfl
@[simp] theorem State.clearStatus_overrun (s : State) (v : Word) :
    (s.clearStatus v).overrun = (s.overrun && !v[2]) := rfl
@[simp] theorem State.clearStatus_accessErr (s : State) (v : Word) :
    (s.clearStatus v).accessErr = (s.accessErr && !v[3]) := rfl
@[simp] theorem State.clearStatus_err (s : State) (v : Word) :
    (s.clearStatus v).err = s.err := rfl
@[simp] theorem State.clearStatus_lastCmd (s : State) (v : Word) :
    (s.clearStatus v).lastCmd = s.lastCmd := rfl
@[simp] theorem State.clearStatus_typeReg (s : State) (v : Word) :
    (s.clearStatus v).typeReg = s.typeReg := rfl
@[simp] theorem State.clearStatus_srcAddr (s : State) (v : Word) :
    (s.clearStatus v).srcAddr = s.srcAddr := rfl
@[simp] theorem State.clearStatus_srcLen (s : State) (v : Word) :
    (s.clearStatus v).srcLen = s.srcLen := rfl
@[simp] theorem State.clearStatus_dstAddr (s : State) (v : Word) :
    (s.clearStatus v).dstAddr = s.dstAddr := rfl
@[simp] theorem State.clearStatus_dstCap (s : State) (v : Word) :
    (s.clearStatus v).dstCap = s.dstCap := rfl
@[simp] theorem State.clearStatus_result (s : State) (v : Word) :
    (s.clearStatus v).result = s.result := rfl
@[simp] theorem State.clearStatus_crcOut (s : State) (v : Word) :
    (s.clearStatus v).crcOut = s.crcOut := rfl
@[simp] theorem State.clearStatus_crcRcvd (s : State) (v : Word) :
    (s.clearStatus v).crcRcvd = s.crcRcvd := rfl
@[simp] theorem State.clearStatus_slots (s : State) (v : Word) :
    (s.clearStatus v).slots = s.slots := rfl
@[simp] theorem State.clearStatus_latch (s : State) (v : Word) :
    (s.clearStatus v).latch = s.latch := rfl
@[simp] theorem State.clearStatus_mem (s : State) (v : Word) :
    (s.clearStatus v).mem = s.mem := rfl
@[simp] theorem State.clearStatus_program (s : State) (v : Word) :
    (s.clearStatus v).program = s.program := rfl
@[simp] theorem State.clearStatus_reads (s : State) (v : Word) :
    (s.clearStatus v).reads = s.reads := rfl
@[simp] theorem State.clearStatus_platform (s : State) (v : Word) :
    (s.clearStatus v).platform = s.platform := rfl
@[simp] theorem State.clearStatus_delay (s : State) (v : Word) :
    (s.clearStatus v).delay = s.delay := rfl
@[simp] theorem State.clearStatus_schedule (s : State) (v : Word) :
    (s.clearStatus v).schedule = s.schedule := rfl
@[simp] theorem State.clearStatus_draws (s : State) (v : Word) :
    (s.clearStatus v).draws = s.draws := rfl

/-! ### record -/

@[simp] theorem State.record_irqEn (s : State) (acc : Access) (v : Word) :
    (s.record acc v).irqEn = s.irqEn := rfl
@[simp] theorem State.record_busy (s : State) (acc : Access) (v : Word) :
    (s.record acc v).busy = s.busy := rfl
@[simp] theorem State.record_done (s : State) (acc : Access) (v : Word) :
    (s.record acc v).done = s.done := rfl
@[simp] theorem State.record_overrun (s : State) (acc : Access) (v : Word) :
    (s.record acc v).overrun = s.overrun := rfl
@[simp] theorem State.record_accessErr (s : State) (acc : Access) (v : Word) :
    (s.record acc v).accessErr = s.accessErr := rfl
@[simp] theorem State.record_err (s : State) (acc : Access) (v : Word) :
    (s.record acc v).err = s.err := rfl
@[simp] theorem State.record_lastCmd (s : State) (acc : Access) (v : Word) :
    (s.record acc v).lastCmd = s.lastCmd := rfl
@[simp] theorem State.record_typeReg (s : State) (acc : Access) (v : Word) :
    (s.record acc v).typeReg = s.typeReg := rfl
@[simp] theorem State.record_srcAddr (s : State) (acc : Access) (v : Word) :
    (s.record acc v).srcAddr = s.srcAddr := rfl
@[simp] theorem State.record_srcLen (s : State) (acc : Access) (v : Word) :
    (s.record acc v).srcLen = s.srcLen := rfl
@[simp] theorem State.record_dstAddr (s : State) (acc : Access) (v : Word) :
    (s.record acc v).dstAddr = s.dstAddr := rfl
@[simp] theorem State.record_dstCap (s : State) (acc : Access) (v : Word) :
    (s.record acc v).dstCap = s.dstCap := rfl
@[simp] theorem State.record_result (s : State) (acc : Access) (v : Word) :
    (s.record acc v).result = s.result := rfl
@[simp] theorem State.record_crcOut (s : State) (acc : Access) (v : Word) :
    (s.record acc v).crcOut = s.crcOut := rfl
@[simp] theorem State.record_crcRcvd (s : State) (acc : Access) (v : Word) :
    (s.record acc v).crcRcvd = s.crcRcvd := rfl
@[simp] theorem State.record_slots (s : State) (acc : Access) (v : Word) :
    (s.record acc v).slots = s.slots := rfl
@[simp] theorem State.record_latch (s : State) (acc : Access) (v : Word) :
    (s.record acc v).latch = s.latch := rfl
@[simp] theorem State.record_mem (s : State) (acc : Access) (v : Word) :
    (s.record acc v).mem = s.mem := rfl
@[simp] theorem State.record_program (s : State) (acc : Access) (v : Word) :
    (s.record acc v).program = s.program := rfl
@[simp] theorem State.record_reads (s : State) (acc : Access) (v : Word) :
    (s.record acc v).reads = s.reads ++ [⟨acc, v⟩] := rfl
@[simp] theorem State.record_platform (s : State) (acc : Access) (v : Word) :
    (s.record acc v).platform = s.platform := rfl
@[simp] theorem State.record_delay (s : State) (acc : Access) (v : Word) :
    (s.record acc v).delay = s.delay := rfl
@[simp] theorem State.record_schedule (s : State) (acc : Access) (v : Word) :
    (s.record acc v).schedule = s.schedule := rfl
@[simp] theorem State.record_draws (s : State) (acc : Access) (v : Word) :
    (s.record acc v).draws = s.draws := rfl

/-! ### setProgram -/

@[simp] theorem State.setProgram_irqEn (s : State) (p : List Access) :
    (s.setProgram p).irqEn = s.irqEn := rfl
@[simp] theorem State.setProgram_busy (s : State) (p : List Access) :
    (s.setProgram p).busy = s.busy := rfl
@[simp] theorem State.setProgram_done (s : State) (p : List Access) :
    (s.setProgram p).done = s.done := rfl
@[simp] theorem State.setProgram_overrun (s : State) (p : List Access) :
    (s.setProgram p).overrun = s.overrun := rfl
@[simp] theorem State.setProgram_accessErr (s : State) (p : List Access) :
    (s.setProgram p).accessErr = s.accessErr := rfl
@[simp] theorem State.setProgram_err (s : State) (p : List Access) :
    (s.setProgram p).err = s.err := rfl
@[simp] theorem State.setProgram_lastCmd (s : State) (p : List Access) :
    (s.setProgram p).lastCmd = s.lastCmd := rfl
@[simp] theorem State.setProgram_typeReg (s : State) (p : List Access) :
    (s.setProgram p).typeReg = s.typeReg := rfl
@[simp] theorem State.setProgram_srcAddr (s : State) (p : List Access) :
    (s.setProgram p).srcAddr = s.srcAddr := rfl
@[simp] theorem State.setProgram_srcLen (s : State) (p : List Access) :
    (s.setProgram p).srcLen = s.srcLen := rfl
@[simp] theorem State.setProgram_dstAddr (s : State) (p : List Access) :
    (s.setProgram p).dstAddr = s.dstAddr := rfl
@[simp] theorem State.setProgram_dstCap (s : State) (p : List Access) :
    (s.setProgram p).dstCap = s.dstCap := rfl
@[simp] theorem State.setProgram_result (s : State) (p : List Access) :
    (s.setProgram p).result = s.result := rfl
@[simp] theorem State.setProgram_crcOut (s : State) (p : List Access) :
    (s.setProgram p).crcOut = s.crcOut := rfl
@[simp] theorem State.setProgram_crcRcvd (s : State) (p : List Access) :
    (s.setProgram p).crcRcvd = s.crcRcvd := rfl
@[simp] theorem State.setProgram_slots (s : State) (p : List Access) :
    (s.setProgram p).slots = s.slots := rfl
@[simp] theorem State.setProgram_latch (s : State) (p : List Access) :
    (s.setProgram p).latch = s.latch := rfl
@[simp] theorem State.setProgram_mem (s : State) (p : List Access) :
    (s.setProgram p).mem = s.mem := rfl
@[simp] theorem State.setProgram_program (s : State) (p : List Access) :
    (s.setProgram p).program = p := rfl
@[simp] theorem State.setProgram_reads (s : State) (p : List Access) :
    (s.setProgram p).reads = s.reads := rfl
@[simp] theorem State.setProgram_platform (s : State) (p : List Access) :
    (s.setProgram p).platform = s.platform := rfl
@[simp] theorem State.setProgram_delay (s : State) (p : List Access) :
    (s.setProgram p).delay = s.delay := rfl
@[simp] theorem State.setProgram_schedule (s : State) (p : List Access) :
    (s.setProgram p).schedule = s.schedule := rfl
@[simp] theorem State.setProgram_draws (s : State) (p : List Access) :
    (s.setProgram p).draws = s.draws := rfl

/-! ### countAccess -/

@[simp] theorem State.countAccess_irqEn (s : State) :
    (s.countAccess).irqEn = s.irqEn := rfl
@[simp] theorem State.countAccess_busy (s : State) :
    (s.countAccess).busy = s.busy := rfl
@[simp] theorem State.countAccess_done (s : State) :
    (s.countAccess).done = s.done := rfl
@[simp] theorem State.countAccess_overrun (s : State) :
    (s.countAccess).overrun = s.overrun := rfl
@[simp] theorem State.countAccess_accessErr (s : State) :
    (s.countAccess).accessErr = s.accessErr := rfl
@[simp] theorem State.countAccess_err (s : State) :
    (s.countAccess).err = s.err := rfl
@[simp] theorem State.countAccess_lastCmd (s : State) :
    (s.countAccess).lastCmd = s.lastCmd := rfl
@[simp] theorem State.countAccess_typeReg (s : State) :
    (s.countAccess).typeReg = s.typeReg := rfl
@[simp] theorem State.countAccess_srcAddr (s : State) :
    (s.countAccess).srcAddr = s.srcAddr := rfl
@[simp] theorem State.countAccess_srcLen (s : State) :
    (s.countAccess).srcLen = s.srcLen := rfl
@[simp] theorem State.countAccess_dstAddr (s : State) :
    (s.countAccess).dstAddr = s.dstAddr := rfl
@[simp] theorem State.countAccess_dstCap (s : State) :
    (s.countAccess).dstCap = s.dstCap := rfl
@[simp] theorem State.countAccess_result (s : State) :
    (s.countAccess).result = s.result := rfl
@[simp] theorem State.countAccess_crcOut (s : State) :
    (s.countAccess).crcOut = s.crcOut := rfl
@[simp] theorem State.countAccess_crcRcvd (s : State) :
    (s.countAccess).crcRcvd = s.crcRcvd := rfl
@[simp] theorem State.countAccess_slots (s : State) :
    (s.countAccess).slots = s.slots := rfl
@[simp] theorem State.countAccess_latch (s : State) :
    (s.countAccess).latch = s.latch := rfl
@[simp] theorem State.countAccess_mem (s : State) :
    (s.countAccess).mem = s.mem := rfl
@[simp] theorem State.countAccess_program (s : State) :
    (s.countAccess).program = s.program := rfl
@[simp] theorem State.countAccess_reads (s : State) :
    (s.countAccess).reads = s.reads := rfl
@[simp] theorem State.countAccess_platform (s : State) :
    (s.countAccess).platform = s.platform := rfl
@[simp] theorem State.countAccess_delay (s : State) :
    (s.countAccess).delay = s.delay - 1 := rfl
@[simp] theorem State.countAccess_schedule (s : State) :
    (s.countAccess).schedule = s.schedule := rfl
@[simp] theorem State.countAccess_draws (s : State) :
    (s.countAccess).draws = s.draws := rfl

/-! ### issueAfter -/

@[simp] theorem State.issueAfter_irqEn (s : State) (w : Word) (d : Nat) :
    (s.issueAfter w d).irqEn = s.irqEn := rfl
@[simp] theorem State.issueAfter_busy (s : State) (w : Word) (d : Nat) :
    (s.issueAfter w d).busy = true := rfl
@[simp] theorem State.issueAfter_done (s : State) (w : Word) (d : Nat) :
    (s.issueAfter w d).done = false := rfl
@[simp] theorem State.issueAfter_overrun (s : State) (w : Word) (d : Nat) :
    (s.issueAfter w d).overrun = s.overrun := rfl
@[simp] theorem State.issueAfter_accessErr (s : State) (w : Word) (d : Nat) :
    (s.issueAfter w d).accessErr = s.accessErr := rfl
@[simp] theorem State.issueAfter_err (s : State) (w : Word) (d : Nat) :
    (s.issueAfter w d).err = s.err := rfl
@[simp] theorem State.issueAfter_lastCmd (s : State) (w : Word) (d : Nat) :
    (s.issueAfter w d).lastCmd = s.lastCmd := rfl
@[simp] theorem State.issueAfter_typeReg (s : State) (w : Word) (d : Nat) :
    (s.issueAfter w d).typeReg = s.typeReg := rfl
@[simp] theorem State.issueAfter_srcAddr (s : State) (w : Word) (d : Nat) :
    (s.issueAfter w d).srcAddr = s.srcAddr := rfl
@[simp] theorem State.issueAfter_srcLen (s : State) (w : Word) (d : Nat) :
    (s.issueAfter w d).srcLen = s.srcLen := rfl
@[simp] theorem State.issueAfter_dstAddr (s : State) (w : Word) (d : Nat) :
    (s.issueAfter w d).dstAddr = s.dstAddr := rfl
@[simp] theorem State.issueAfter_dstCap (s : State) (w : Word) (d : Nat) :
    (s.issueAfter w d).dstCap = s.dstCap := rfl
@[simp] theorem State.issueAfter_result (s : State) (w : Word) (d : Nat) :
    (s.issueAfter w d).result = s.result := rfl
@[simp] theorem State.issueAfter_crcOut (s : State) (w : Word) (d : Nat) :
    (s.issueAfter w d).crcOut = s.crcOut := rfl
@[simp] theorem State.issueAfter_crcRcvd (s : State) (w : Word) (d : Nat) :
    (s.issueAfter w d).crcRcvd = s.crcRcvd := rfl
@[simp] theorem State.issueAfter_slots (s : State) (w : Word) (d : Nat) :
    (s.issueAfter w d).slots = s.slots := rfl
@[simp] theorem State.issueAfter_latch (s : State) (w : Word) (d : Nat) :
    (s.issueAfter w d).latch = some (s.latched w) := rfl
@[simp] theorem State.issueAfter_mem (s : State) (w : Word) (d : Nat) :
    (s.issueAfter w d).mem = s.mem := rfl
@[simp] theorem State.issueAfter_program (s : State) (w : Word) (d : Nat) :
    (s.issueAfter w d).program = s.program := rfl
@[simp] theorem State.issueAfter_reads (s : State) (w : Word) (d : Nat) :
    (s.issueAfter w d).reads = s.reads := rfl
@[simp] theorem State.issueAfter_platform (s : State) (w : Word) (d : Nat) :
    (s.issueAfter w d).platform = s.platform := rfl
@[simp] theorem State.issueAfter_delay (s : State) (w : Word) (d : Nat) :
    (s.issueAfter w d).delay = d := rfl
@[simp] theorem State.issueAfter_schedule (s : State) (w : Word) (d : Nat) :
    (s.issueAfter w d).schedule = s.schedule := rfl
@[simp] theorem State.issueAfter_draws (s : State) (w : Word) (d : Nat) :
    (s.issueAfter w d).draws = s.draws := rfl

/-! ### resetEngine -/

@[simp] theorem State.resetEngine_irqEn (s : State) :
    (s.resetEngine).irqEn = false := rfl
@[simp] theorem State.resetEngine_busy (s : State) :
    (s.resetEngine).busy = false := rfl
@[simp] theorem State.resetEngine_done (s : State) :
    (s.resetEngine).done = false := rfl
@[simp] theorem State.resetEngine_overrun (s : State) :
    (s.resetEngine).overrun = false := rfl
@[simp] theorem State.resetEngine_accessErr (s : State) :
    (s.resetEngine).accessErr = false := rfl
@[simp] theorem State.resetEngine_err (s : State) :
    (s.resetEngine).err = 0 := rfl
@[simp] theorem State.resetEngine_lastCmd (s : State) :
    (s.resetEngine).lastCmd = 0 := rfl
@[simp] theorem State.resetEngine_typeReg (s : State) :
    (s.resetEngine).typeReg = 0 := rfl
@[simp] theorem State.resetEngine_srcAddr (s : State) :
    (s.resetEngine).srcAddr = 0 := rfl
@[simp] theorem State.resetEngine_srcLen (s : State) :
    (s.resetEngine).srcLen = 0 := rfl
@[simp] theorem State.resetEngine_dstAddr (s : State) :
    (s.resetEngine).dstAddr = 0 := rfl
@[simp] theorem State.resetEngine_dstCap (s : State) :
    (s.resetEngine).dstCap = 0 := rfl
@[simp] theorem State.resetEngine_result (s : State) :
    (s.resetEngine).result = 0 := rfl
@[simp] theorem State.resetEngine_crcOut (s : State) :
    (s.resetEngine).crcOut = 0 := rfl
@[simp] theorem State.resetEngine_crcRcvd (s : State) :
    (s.resetEngine).crcRcvd = 0 := rfl
@[simp] theorem State.resetEngine_slots (s : State) :
    (s.resetEngine).slots = s.slots.map Slot.emptied := rfl
@[simp] theorem State.resetEngine_latch (s : State) :
    (s.resetEngine).latch = none := rfl
@[simp] theorem State.resetEngine_mem (s : State) :
    (s.resetEngine).mem = s.mem := rfl
@[simp] theorem State.resetEngine_program (s : State) :
    (s.resetEngine).program = s.program := rfl
@[simp] theorem State.resetEngine_reads (s : State) :
    (s.resetEngine).reads = s.reads := rfl
@[simp] theorem State.resetEngine_platform (s : State) :
    (s.resetEngine).platform = s.platform := rfl
@[simp] theorem State.resetEngine_delay (s : State) :
    (s.resetEngine).delay = 0 := rfl
@[simp] theorem State.resetEngine_schedule (s : State) :
    (s.resetEngine).schedule = s.schedule := rfl
@[simp] theorem State.resetEngine_draws (s : State) :
    (s.resetEngine).draws = s.draws := rfl

end Sys2Proof.Machine
end

