-- ==== Sys2Proof/Laws/Ops.lean ====
section
/-! SUPPORT. One lemma per shared operation: what each update leaves of the slots, the RAM cells and the
bytes of `M`, and what the readers return. -/

namespace Sys2Proof.Machine

/-! ## Slots -/

theorem slotIndex?_eq_some {n : Nat} {k : Fin Config.numSlots} :
    slotIndex? n = some k ↔ n = k.val := by
  unfold slotIndex?
  split
  · simp [Fin.ext_iff]
  · rename_i h
    simp only [reduceCtorEq, false_iff]
    intro hk
    exact h (hk ▸ k.isLt)

theorem slotIndex?_eq_none {n : Nat} : slotIndex? n = none ↔ Config.numSlots ≤ n := by
  unfold slotIndex?
  split <;> simp <;> omega

@[simp] theorem slotIndex?_val (k : Fin Config.numSlots) : slotIndex? k.val = some k :=
  slotIndex?_eq_some.2 rfl

/-- The slot read after one was replaced. -/
theorem State.slot_setSlot (s : State) (k j : Fin Config.numSlots) (x : Slot) :
    (s.setSlot k x).slot j = if j = k then x else s.slot j := by
  unfold State.slot State.setSlot
  simp only [Fin.getElem_fin]
  rw [Vector.getElem_set]
  by_cases h : j = k
  · simp [h]
  · have : ¬ k.val = j.val := fun e => h (Fin.ext e.symm)
    simp [h, this]

@[simp] theorem State.slot_setSlot_self (s : State) (k : Fin Config.numSlots) (x : Slot) :
    (s.setSlot k x).slot k = x := by simp [State.slot_setSlot]

theorem State.slot_setSlot_ne (s : State) {k j : Fin Config.numSlots} (x : Slot) (h : j ≠ k) :
    (s.setSlot k x).slot j = s.slot j := by simp [State.slot_setSlot, h]

/-- A state's slots are read the same whatever else differs. -/
theorem State.slot_congr {s t : State} (h : t.slots = s.slots) (k : Fin Config.numSlots) :
    t.slot k = s.slot k := by unfold State.slot; rw [h]

theorem State.ramCell_congr {s t : State} (h : t.slots = s.slots) (k : Fin Config.numSlots) (o : Nat) :
    t.ramCell k o = s.ramCell k o := by unfold State.ramCell; rw [State.slot_congr h]

@[simp] theorem State.slot_complete (s : State) (l : Latch) (e : ErrorKind) (r : Word)
    (k : Fin Config.numSlots) : (s.complete l e r).slot k = s.slot k := rfl
@[simp] theorem State.slot_writeMem (s : State) (a : Nat) (bs : List Byte) (k : Fin Config.numSlots) :
    (s.writeMem a bs).slot k = s.slot k := rfl
@[simp] theorem State.slot_drew (s : State) (n : Nat) (k : Fin Config.numSlots) :
    (s.drew n).slot k = s.slot k := rfl
@[simp] theorem State.slot_setCrcOut (s : State) (v : Word) (k : Fin Config.numSlots) :
    (s.setCrcOut v).slot k = s.slot k := rfl
@[simp] theorem State.slot_setCrcRcvd (s : State) (v : Word) (k : Fin Config.numSlots) :
    (s.setCrcRcvd v).slot k = s.slot k := rfl
@[simp] theorem State.slot_flagAccessErr (s : State) (k : Fin Config.numSlots) :
    s.flagAccessErr.slot k = s.slot k := rfl
@[simp] theorem State.slot_clearStatus (s : State) (v : Word) (k : Fin Config.numSlots) :
    (s.clearStatus v).slot k = s.slot k := rfl
@[simp] theorem State.slot_record (s : State) (acc : Access) (v : Word) (k : Fin Config.numSlots) :
    (s.record acc v).slot k = s.slot k := rfl
@[simp] theorem State.slot_countAccess (s : State) (k : Fin Config.numSlots) :
    s.countAccess.slot k = s.slot k := rfl
@[simp] theorem State.slot_issueAfter (s : State) (w : Word) (d : Nat) (k : Fin Config.numSlots) :
    (s.issueAfter w d).slot k = s.slot k := rfl

@[simp] theorem State.slot_resetEngine (s : State) (k : Fin Config.numSlots) :
    s.resetEngine.slot k = (s.slot k).emptied := by
  unfold State.slot
  simp only [State.resetEngine_slots, Fin.getElem_fin, Vector.getElem_map]

/-- A record written: the slot's own cells stay, and so does every other slot. -/
theorem State.slot_setRecord (s : State) (k j : Fin Config.numSlots) (f : Bool) (t n : Word) :
    (s.setRecord k f t n).slot j
      = if j = k then { s.slot k with full := f, stype := t, slen := n } else s.slot j :=
  State.slot_setSlot s k j _

/-- RAM written: the slot's own record stays, and so does every other slot. -/
theorem State.slot_writeRam (s : State) (k j : Fin Config.numSlots) (o : Nat) (bs : List Byte) :
    (s.writeRam k o bs).slot j
      = if j = k then { s.slot k with ram := (s.slot k).ram.write o bs } else s.slot j :=
  State.slot_setSlot s k j _

/-! ## RAM cells -/

@[simp] theorem State.ramCell_complete (s : State) (l : Latch) (e : ErrorKind) (r : Word)
    (k : Fin Config.numSlots) (o : Nat) : (s.complete l e r).ramCell k o = s.ramCell k o := rfl
@[simp] theorem State.ramCell_writeMem (s : State) (a : Nat) (bs : List Byte) (k : Fin Config.numSlots)
    (o : Nat) : (s.writeMem a bs).ramCell k o = s.ramCell k o := rfl
@[simp] theorem State.ramCell_drew (s : State) (n : Nat) (k : Fin Config.numSlots) (o : Nat) :
    (s.drew n).ramCell k o = s.ramCell k o := rfl

@[simp] theorem State.ramCell_setCrcOut (s : State) (v : Word) (k : Fin Config.numSlots) (o : Nat) :
    (s.setCrcOut v).ramCell k o = s.ramCell k o := rfl
@[simp] theorem State.ramCell_setCrcRcvd (s : State) (v : Word) (k : Fin Config.numSlots) (o : Nat) :
    (s.setCrcRcvd v).ramCell k o = s.ramCell k o := rfl

@[simp] theorem State.ramCell_setRecord (s : State) (k j : Fin Config.numSlots) (f : Bool) (t n : Word)
    (o : Nat) : (s.setRecord k f t n).ramCell j o = s.ramCell j o := by
  unfold State.ramCell
  rw [State.slot_setRecord]
  split <;> simp_all

@[simp] theorem State.ramCell_resetEngine (s : State) (k : Fin Config.numSlots) (o : Nat) :
    s.resetEngine.ramCell k o = s.ramCell k o := by simp [State.ramCell, Slot.emptied]

/-- A RAM cell read after a RAM write. -/
theorem State.ramCell_writeRam (s : State) (k j : Fin Config.numSlots) (o : Nat) (bs : List Byte)
    (x : Nat) :
    (s.writeRam k o bs).ramCell j x
      = if j = k ∧ o ≤ x ∧ x < o + bs.length then bs[x - o]? else s.ramCell j x := by
  unfold State.ramCell
  rw [State.slot_writeRam]
  by_cases h : j = k
  · subst h
    simp [Memory.lookup_write]
  · simp [h]

/-! ## Bytes of `M` -/

theorem State.readByte_congr {s t : State} (h : t.mem = s.mem) (a : Nat) :
    t.readByte a = s.readByte a := by unfold State.readByte; rw [h]

@[simp] theorem State.readByte_complete (s : State) (l : Latch) (e : ErrorKind) (r : Word) (a : Nat) :
    (s.complete l e r).readByte a = s.readByte a := rfl
@[simp] theorem State.readByte_setSlot (s : State) (k : Fin Config.numSlots) (x : Slot) (a : Nat) :
    (s.setSlot k x).readByte a = s.readByte a := rfl
@[simp] theorem State.readByte_setRecord (s : State) (k : Fin Config.numSlots) (f : Bool) (t n : Word)
    (a : Nat) : (s.setRecord k f t n).readByte a = s.readByte a := rfl
@[simp] theorem State.readByte_writeRam (s : State) (k : Fin Config.numSlots) (o : Nat) (bs : List Byte)
    (a : Nat) : (s.writeRam k o bs).readByte a = s.readByte a := rfl
@[simp] theorem State.readByte_drew (s : State) (n a : Nat) : (s.drew n).readByte a = s.readByte a := rfl
@[simp] theorem State.readByte_setCrcOut (s : State) (v : Word) (a : Nat) :
    (s.setCrcOut v).readByte a = s.readByte a := rfl
@[simp] theorem State.readByte_setCrcRcvd (s : State) (v : Word) (a : Nat) :
    (s.setCrcRcvd v).readByte a = s.readByte a := rfl
@[simp] theorem State.readByte_resetEngine (s : State) (a : Nat) :
    s.resetEngine.readByte a = s.readByte a := rfl

/-- A byte of `M` read after a write of `M`. -/
theorem State.readByte_writeMem (s : State) (a : Nat) (bs : List Byte) (x : Nat) :
    (s.writeMem a bs).readByte x
      = if a ≤ x ∧ x < a + bs.length then (bs[x - a]?).getD (Config.platformByte x)
        else s.readByte x := by
  unfold State.readByte
  rw [State.writeMem_mem, Memory.lookup_write]
  split <;> rfl

theorem State.readByte_writeMem_inside (s : State) (a : Nat) (bs : List Byte) (i : Nat)
    (h : i < bs.length) : (s.writeMem a bs).readByte (a + i) = bs[i] := by
  simp [State.readByte_writeMem, h]

theorem State.readByte_writeMem_outside (s : State) (a : Nat) (bs : List Byte) (x : Nat)
    (h : x < a ∨ a + bs.length ≤ x) : (s.writeMem a bs).readByte x = s.readByte x := by
  rw [State.readByte_writeMem, if_neg (by omega)]

/-! ## Readers of byte lists -/

@[simp] theorem State.length_readMem (s : State) (a n : Nat) : (s.readMem a n).length = n := by
  simp [State.readMem]

@[simp] theorem State.getElem_readMem (s : State) (a n i : Nat) (h : i < (s.readMem a n).length) :
    (s.readMem a n)[i] = s.readByte (a + i) := by simp [State.readMem]

@[simp] theorem State.length_readRam (s : State) (k : Fin Config.numSlots) (n : Nat) :
    (s.readRam k n).length = n := by simp [State.readRam]

@[simp] theorem State.getElem_readRam (s : State) (k : Fin Config.numSlots) (n i : Nat)
    (h : i < (s.readRam k n).length) : (s.readRam k n)[i] = s.readCell k i (s.draws + i) := by
  simp [State.readRam]

@[simp] theorem length_freeBytes (d n : Nat) : (freeBytes d n).length = n := by simp [freeBytes]

@[simp] theorem length_toBE32 (v : Word) : (toBE32 v).length = 4 := rfl

@[simp] theorem length_frame (len t : Word) (d : List Byte) : (frame len t d).length = d.length + 12 := by
  simp [frame]
  omega

/-! ## Canonical form and legality -/

theorem Slot.legal_reset : Slot.reset.Legal := ⟨by simp [Slot.reset], by simp [Slot.reset], by
  simpa [Slot.reset] using Memory.wfBelow_nil Config.slotBytes⟩

theorem Slot.Legal.emptied {x : Slot} (h : x.Legal) : x.emptied.Legal :=
  ⟨by simp [Slot.emptied], by simp [Slot.emptied], h.ram⟩

/-- Host memory is in canonical form after power-on. -/
theorem State.reset_mem_wf : State.reset.mem.wf := Memory.wfBelow_nil _

/-- A RAM write within the slot's size keeps a slot legal. -/
theorem Slot.Legal.withRam {x : Slot} (h : x.Legal) {o : Nat} {bs : List Byte}
    (hb : bs = [] ∨ o + bs.length ≤ Config.slotBytes) : Slot.Legal { x with ram := x.ram.write o bs } :=
  ⟨h.empty, h.bounded, Memory.write_wfBelow _ _ _ _ h.ram hb⟩

/-! ## Draws of an abandoned command -/

/-- What `drawMem` leaves of `M`: every byte outside the range, and byte 0. -/
theorem State.readByte_drawMem_outside (s : State) (a n x : Nat) (h : x = 0 ∨ x < a ∨ a + n ≤ x) :
    (s.drawMem a n).readByte x = s.readByte x := by
  unfold State.drawMem
  simp only [State.readByte_drew]
  by_cases hc : min (a + n) Config.memBytes - max a 1 = 0
  · rw [hc, State.readByte_writeMem_outside]
    simp only [length_freeBytes]
    omega
  · apply State.readByte_writeMem_outside
    simp only [length_freeBytes]
    omega

@[simp] theorem State.slot_drawMem (s : State) (a n : Nat) (k : Fin Config.numSlots) :
    (s.drawMem a n).slot k = s.slot k := rfl

@[simp] theorem State.readByte_drawRam (s : State) (sa n a : Nat) :
    (s.drawRam sa n).readByte a = s.readByte a := by
  unfold State.drawRam
  split <;> rfl

/-- What `drawRam` leaves of the slots: every record, every other slot, and the cells past the range. -/
theorem State.slot_drawRam (s : State) (sa n : Nat) (k : Fin Config.numSlots) :
    ((s.drawRam sa n).slot k).full = (s.slot k).full ∧ ((s.drawRam sa n).slot k).stype = (s.slot k).stype
      ∧ ((s.drawRam sa n).slot k).slen = (s.slot k).slen := by
  unfold State.drawRam
  split
  · exact ⟨rfl, rfl, rfl⟩
  · simp only [State.slot_drew, State.slot_writeRam]
    split <;> simp_all

theorem State.ramCell_drawRam_outside (s : State) (sa n : Nat) (k : Fin Config.numSlots) (o : Nat)
    (h : k.val ≠ sa ∨ n ≤ o) : (s.drawRam sa n).ramCell k o = s.ramCell k o := by
  unfold State.drawRam
  split
  · rfl
  · rename_i j hj
    simp only [State.ramCell_drew, State.ramCell_writeRam, length_freeBytes]
    rw [if_neg]
    rintro ⟨rfl, -, ho⟩
    have := slotIndex?_eq_some.1 hj
    omega

theorem State.ramWf_drawRam (s : State) (sa n : Nat) (k : Fin Config.numSlots)
    (h : (s.slot k).ram.ramWf) : ((s.drawRam sa n).slot k).ram.ramWf := by
  unfold State.drawRam
  split
  · exact h
  · simp only [State.slot_drew, State.slot_writeRam]
    split
    · rename_i j _ hk
      subst hk
      exact Memory.write_wfBelow _ _ _ _ h (.inr (by simp))
    · exact h

theorem State.wf_drawMem (s : State) (a n : Nat) (h : s.mem.wf) : (s.drawMem a n).mem.wf := by
  unfold State.drawMem
  refine Memory.write_wfBelow _ _ _ _ h ?_
  by_cases hc : min (a + n) Config.memBytes - max a 1 = 0
  · left
    simp [hc, freeBytes]
  · right
    simp only [length_freeBytes]
    omega

end Sys2Proof.Machine
end

