-- ==== Sys2Proof/Laws/Exec.lean ====
section
/-! SUPPORT. What each command can do, said once: a command in flight always completes, and each rule
either completes with an error and no other effect or passes every check and has its effect. -/

namespace Sys2Proof.Machine

/-- The shape `withLatch` gives every meaning. -/
theorem withLatch_eq_next {s t : State} {rule : Latch → State} :
    withLatch s rule = .next t ↔ ∃ l, s.latch = some l ∧ t = rule l := by
  unfold withLatch
  cases s.latch with
  | none => simp
  | some l => simp [eq_comm]

theorem withLatch_some {s : State} {l : Latch} (h : s.latch = some l) (rule : Latch → State) :
    withLatch s rule = .next (rule l) := by simp [withLatch, h]

theorem onSlot_some {s : State} {l : Latch} {n : Nat} {k : Fin Config.numSlots}
    (h : slotIndex? n = some k) (rule : Fin Config.numSlots → State) : onSlot s l n rule = rule k := by
  simp [onSlot, h]

@[simp] theorem onSlot_val (s : State) (l : Latch) (k : Fin Config.numSlots)
    (rule : Fin Config.numSlots → State) : onSlot s l k.val rule = rule k :=
  onSlot_some (slotIndex?_val k) rule

theorem onSlot_none {s : State} {l : Latch} {n : Nat} (h : Config.numSlots ≤ n)
    (rule : Fin Config.numSlots → State) : onSlot s l n rule = s.complete l .illegalArgument 0 := by
  simp [onSlot, slotIndex?_eq_none.2 h]

/-- A slot operand names a slot of the configuration, or the command only raises `IllegalArgument`. -/
theorem onSlot_cases (s : State) (l : Latch) (n : Nat) (rule : Fin Config.numSlots → State) :
    (∃ k : Fin Config.numSlots, n = k.val ∧ onSlot s l n rule = rule k)
      ∨ (Config.numSlots ≤ n ∧ onSlot s l n rule = s.complete l .illegalArgument 0) := by
  cases h : slotIndex? n with
  | some k => exact .inl ⟨k, slotIndex?_eq_some.1 h, onSlot_some h rule⟩
  | none => exact .inr ⟨slotIndex?_eq_none.1 h, onSlot_none (slotIndex?_eq_none.1 h) rule⟩

/-- The state a command leaves, from its latched operands. -/
def commandEffect (i : Instr) (s : State) (l : Latch) : State :=
  match i with
  | .nop => s.complete l .ok 0
  | .crc => crcRule s l
  | .create sa => onSlot s l sa fun k => createRule s l k
  | .adopt sa => onSlot s l sa fun k => adoptRule s l k
  | .ser sa => onSlot s l sa fun k => serRule s l k
  | .deser sa => onSlot s l sa fun k => deserRule Config.deserValidatesType s l k
  | .clear sa => onSlot s l sa fun k => clearRule s l k
  | .free sa => onSlot s l sa fun k => freeRule s l k
  | .swap sa sb =>
    onSlot s l sa fun ka => onSlot s l sb fun kb => (s.swapSlots ka kb).complete l .ok 0

theorem exec_eq_withLatch (i : Instr) (s : State) :
    exec i s = withLatch s fun l => commandEffect i s l := by cases i <;> rfl

/-- A command in flight completes in one step, in the state its rule gives. -/
theorem exec_some {s : State} {l : Latch} (h : s.latch = some l) (i : Instr) :
    exec i s = .next (commandEffect i s l) := by rw [exec_eq_withLatch, withLatch_some h]

theorem exec_eq_next {i : Instr} {s t : State} :
    exec i s = .next t ↔ ∃ l, s.latch = some l ∧ t = commandEffect i s l := by
  rw [exec_eq_withLatch, withLatch_eq_next]

/-! ## One lemma per rule: the errors it can raise with no other effect, or its checks and its effect -/

theorem crcRule_cases (s : State) (l : Latch) :
    (∃ e ∈ [.nullArgument, .illegalArgument], crcRule s l = s.complete l e 0)
      ∨ (isNull l.srcAddr.toNat l.srcLen.toNat = false ∧ wraps l.srcAddr.toNat l.srcLen.toNat = false
        ∧ crcRule s l = (s.setCrcOut (chunkCrc l.typeCode
            (s.readMem l.srcAddr.toNat l.srcLen.toNat))).complete l .ok 0) := by
  unfold crcRule
  dsimp only
  split
  · exact .inl ⟨_, by decide, rfl⟩
  · split
    · exact .inl ⟨_, by decide, rfl⟩
    · exact .inr ⟨by simp_all, by simp_all, rfl⟩

theorem createRule_cases (s : State) (l : Latch) (k : Fin Config.numSlots) :
    (∃ e ∈ [.illegalArgument, .outOfMemory], createRule s l k = s.complete l e 0)
      ∨ ((s.slot k).full = false ∧ isNull l.srcAddr.toNat l.srcLen.toNat = false
        ∧ l.srcLen.toNat ≤ Config.maxChunkLen ∧ typeIsValid l.typeCode = true
        ∧ wraps l.srcAddr.toNat l.srcLen.toNat = false ∧ l.srcLen.toNat ≤ Config.slotBytes
        ∧ createRule s l k = ((s.writeRam k 0 (s.readMem l.srcAddr.toNat l.srcLen.toNat)).setRecord k true
            l.typeCode l.srcLen).complete l .ok 0) := by
  unfold createRule
  dsimp only
  split
  · exact .inl ⟨_, by decide, rfl⟩
  split
  · exact .inl ⟨_, by decide, rfl⟩
  split
  · exact .inl ⟨_, by decide, rfl⟩
  split
  · exact .inl ⟨_, by decide, rfl⟩
  split
  · exact .inl ⟨_, by decide, rfl⟩
  split
  · exact .inl ⟨_, by decide, rfl⟩
  · exact .inr ⟨by simp_all, by simp_all, by simp_all, by simp_all, by simp_all, by
      simp_all [fitsSlot], rfl⟩

theorem adoptRule_cases (s : State) (l : Latch) (k : Fin Config.numSlots) :
    adoptRule s l k = s.complete l .illegalArgument 0
      ∨ ((s.slot k).full = false ∧ l.srcLen.toNat ≤ Config.maxChunkLen ∧ typeIsValid l.typeCode = true
        ∧ l.srcLen.toNat ≤ Config.slotBytes
        ∧ adoptRule s l k = (s.setRecord k true l.typeCode l.srcLen).complete l .ok 0) := by
  unfold adoptRule
  dsimp only
  split
  · exact .inl rfl
  split
  · exact .inl rfl
  split
  · exact .inl rfl
  split
  · exact .inl rfl
  · exact .inr ⟨by simp_all, by simp_all, by simp_all, by simp_all [fitsSlot], rfl⟩

theorem serRule_cases (s : State) (l : Latch) (k : Fin Config.numSlots) :
    (∃ e ∈ [.illegalArgument, .nullArgument, .capacityExceeded], ∃ r, serRule s l k = s.complete l e r)
      ∨ ((s.slot k).full = true ∧ isNull l.dstAddr.toNat l.dstCap.toNat = false
        ∧ wraps l.dstAddr.toNat l.dstCap.toNat = false ∧ (s.slot k).slen.toNat + 12 ≤ l.dstCap.toNat
        ∧ serRule s l k = serStore s l k) := by
  unfold serRule
  dsimp only
  split
  · exact .inl ⟨_, by decide, _, rfl⟩
  split
  · exact .inl ⟨_, by decide, _, rfl⟩
  split
  · exact .inl ⟨_, by decide, _, rfl⟩
  split
  · exact .inl ⟨_, by decide, _, rfl⟩
  · exact .inr ⟨by simp_all, by simp_all, by simp_all, by simp_all, rfl⟩

theorem deserRule_cases (v : Bool) (s : State) (l : Latch) (k : Fin Config.numSlots) :
    (∃ e ∈ [.illegalArgument, .nullArgument, .incompleteData, .malformedData, .outOfMemory], ∃ r,
        deserRule v s l k = s.complete l e r)
      ∨ ((s.slot k).full = false ∧ isNull l.srcAddr.toNat l.srcLen.toNat = false
        ∧ wraps l.srcAddr.toNat l.srcLen.toNat = false
        ∧ (s.readWord l.srcAddr.toNat).toNat ≤ Config.maxChunkLen
        ∧ (s.readWord l.srcAddr.toNat).toNat + 12 ≤ l.srcLen.toNat
        ∧ (v = true → typeIsValid (s.readWord (l.srcAddr.toNat + 4)) = true)
        ∧ (s.readWord l.srcAddr.toNat).toNat ≤ Config.slotBytes
        ∧ deserRule v s l k = deserVerify s l k (s.readWord l.srcAddr.toNat)) := by
  unfold deserRule
  dsimp only
  split
  · exact .inl ⟨_, by decide, _, rfl⟩
  split
  · exact .inl ⟨_, by decide, _, rfl⟩
  split
  · exact .inl ⟨_, by decide, _, rfl⟩
  split
  · exact .inl ⟨_, by decide, _, rfl⟩
  split
  · exact .inl ⟨_, by decide, _, rfl⟩
  split
  · exact .inl ⟨_, by decide, _, rfl⟩
  split
  · exact .inl ⟨_, by decide, _, rfl⟩
  split
  · exact .inl ⟨_, by decide, _, rfl⟩
  · exact .inr ⟨by simp_all, by simp_all, by simp_all, by simp_all, by simp_all, by
      intro hv; simp_all, by simp_all [fitsSlot], rfl⟩

/-- A frame that is there is stored whatever its CRC; the slot is filled only if the CRCs agree. -/
theorem deserVerify_cases (s : State) (l : Latch) (k : Fin Config.numSlots) (len : Word) :
    let d := s.readMem (l.srcAddr.toNat + 8) len.toNat
    let tc := s.readWord (l.srcAddr.toNat + 4)
    let received := s.readWord (l.srcAddr.toNat + 8 + len.toNat)
    let stored := ((s.writeRam k 0 d).setCrcOut (chunkCrc tc d)).setCrcRcvd received
    (chunkCrc tc d ≠ received ∧ deserVerify s l k len = stored.complete l .checksumMismatch 0)
      ∨ (chunkCrc tc d = received ∧ deserVerify s l k len
          = (stored.setRecord k true tc len).complete l .ok (BitVec.ofNat 32 (len.toNat + 12))) := by
  intro d tc received stored
  by_cases h : chunkCrc tc d = received
  · exact .inr ⟨h, if_neg (not_not.2 h)⟩
  · exact .inl ⟨h, if_pos h⟩

theorem zeroData_cases (s : State) (k : Fin Config.numSlots) :
    ((s.slot k).full = false ∧ zeroData s k = s)
      ∨ ((s.slot k).full = true
        ∧ zeroData s k = s.writeRam k 0 (List.replicate (s.slot k).slen.toNat 0)) := by
  unfold zeroData
  cases h : (s.slot k).full <;> simp

/-- The two slots exchanged, every other one as it was. -/
theorem State.slot_swapSlots (s : State) (ka kb j : Fin Config.numSlots) :
    (s.swapSlots ka kb).slot j = if j = ka then s.slot kb else if j = kb then s.slot ka else s.slot j := by
  unfold State.swapSlots
  by_cases h : ka = kb
  · subst h
    by_cases hj : j = ka <;> simp [hj]
  · rw [if_neg h, State.slot_setSlot, State.slot_setSlot]
    by_cases ha : j = ka
    · subst ha
      simp [h]
    · simp [ha]

/-- An exchange of slots changes nothing else. -/
theorem State.swapSlots_eq (s : State) (ka kb : Fin Config.numSlots) :
    s.swapSlots ka kb = { s with slots := (s.swapSlots ka kb).slots } := by
  unfold State.swapSlots
  split <;> rfl

end Sys2Proof.Machine
end

