-- ==== Sys2Proof/Laws/Step.lean ====
section
/-! SUPPORT. What one step can do, said once: the engine's turn, the host's turn, and the host's
accesses. -/

namespace Sys2Proof.Machine

/-- The engine step ends in a completion with `IllegalCommand`, in the hazard of its operand range, or in
the command's own state. -/
theorem engineStep_eq_next {l : Latch} {s t : State} (hl : s.latch = some l) :
    engineStep l s = .next t ↔
      (∃ e, decode l.cmd = .error e ∧ t = s.complete l .illegalCommand 0)
        ∨ (∃ i, decode l.cmd = .ok i ∧ platformHazard s i l = none ∧ t = commandEffect i s l) := by
  unfold engineStep
  cases hd : decode l.cmd with
  | error e => simp [eq_comm]
  | ok i =>
    cases hp : platformHazard s i l with
    | some f => simp [hp]
    | none => simp [hp, exec_some hl, eq_comm]

/-- A step that goes on is: the end of a run standing still, one host access, or the engine step. -/
theorem step_eq_next {s t : State} :
    step s = .next t ↔
      (s.latch = none ∧ s.program = [] ∧ t = s)
        ∨ (s.latch = none ∧ ∃ acc rest, s.program = acc :: rest
            ∧ hostAccess acc (s.setProgram rest) = .next t)
        ∨ (∃ l, s.latch = some l ∧ s.engineMoves ∧ engineStep l s = .next t)
        ∨ (∃ l acc rest, s.latch = some l ∧ s.program = acc :: rest ∧ s.delay ≠ 0
            ∧ hostAccess acc (s.countAccess.setProgram rest) = .next t) := by
  unfold step turn
  cases hl : s.latch with
  | none =>
    simp only [hostTurn]
    cases hp : s.program with
    | nil => simp [eq_comm]
    | cons acc rest => simp
  | some l =>
    simp only [inFlightTurn, hostTurn, State.countAccess_program]
    cases hp : s.program with
    | nil => simp [State.engineMoves, hp]
    | cons acc rest =>
      by_cases hd : s.delay = 0 <;> simp [State.engineMoves, hd, hp]

/-- An accepted issue takes its delay from the schedule, or draws it. -/
theorem State.issue_cases (s : State) (w : Word) :
    (∃ d rest, s.schedule = d :: rest ∧ s.issue w = State.issueAfter { s with schedule := rest } w d)
      ∨ (s.schedule = [] ∧ s.issue w = (s.drew 1).issueAfter w (Config.freeDelay s.draws)) := by
  unfold State.issue
  cases h : s.schedule with
  | nil => simp
  | cons d rest => exact .inl ⟨d, rest, rfl, rfl⟩

/-- The states differ in the slots, in `M` and in the draws taken at most. -/
def OnlyStorage (s t : State) : Prop := t = { s with slots := t.slots, mem := t.mem, draws := t.draws }

theorem OnlyStorage.refl (s : State) : OnlyStorage s s := rfl

theorem OnlyStorage.trans {s t u : State} (h : OnlyStorage s t) (h' : OnlyStorage t u) : OnlyStorage s u := by
  simp only [OnlyStorage, State.ext_iff] at *
  simp_all

theorem State.drawRam_onlyStorage (s : State) (sa n : Nat) : OnlyStorage s (s.drawRam sa n) := by
  unfold State.drawRam
  split <;> rfl

theorem State.drawMem_onlyStorage (s : State) (a n : Nat) : OnlyStorage s (s.drawMem a n) := rfl

/-- What an abandoned command leaves: everything but storage. -/
theorem State.abandon_onlyStorage (s : State) (l : Latch) : OnlyStorage s (s.abandon l) := by
  unfold State.abandon
  split
  · exact .refl s
  · rename_i i _
    cases i with
    | nop => exact .refl s
    | crc => exact .refl s
    | create sa => exact s.drawRam_onlyStorage sa _
    | adopt sa => exact .refl s
    | ser sa => exact s.drawMem_onlyStorage _ _
    | deser sa => exact s.drawRam_onlyStorage sa _
    | clear sa => exact .refl s
    | free sa => exact s.drawRam_onlyStorage sa _
    | swap sa sb =>
      dsimp only
      split
      · exact s.drawRam_onlyStorage sa _
      · exact (s.drawRam_onlyStorage sa _).trans (State.drawRam_onlyStorage _ sb _)

/-- The soft reset is the reset of the engine after the draws of the abandoned command, if there was
one. -/
theorem State.softReset_cases (s : State) :
    (s.latch = none ∧ s.softReset = s.resetEngine)
      ∨ (∃ l, s.latch = some l ∧ s.softReset = (s.abandon l).resetEngine) := by
  unfold State.softReset
  cases h : s.latch with
  | none => simp
  | some l => simp

end Sys2Proof.Machine
end

