-- ==== Sys2Proof/Laws/HostPort.lean ====
section
/-! SUPPORT. The host's accesses, said once: which place an offset names, and what a read or a write of a
register or of an aperture comes to. -/

namespace Sys2Proof.Machine

/-- Where the apertures stand (20_memory.md R40). -/
theorem placeOf_aperture {n o : Nat} (hn : n < 16) (ho : o < 0x00400000) :
    placeOf (0x01000000 + n * 0x00400000 + o) = .aperture n o := by
  unfold placeOf registerBytes apertureStart apertureStride Config.windowBytes
  rw [if_neg (by omega), if_neg (by omega), if_pos (by omega)]
  have h1 : (0x01000000 + n * 0x00400000 + o - 0x01000000) / 0x00400000 = n := by omega
  have h2 : (0x01000000 + n * 0x00400000 + o - 0x01000000) % 0x00400000 = o := by omega
  rw [h1, h2]

/-- Where the register block stands (R40). -/
theorem placeOf_register {off : Nat} (h : off < 0x140) : placeOf off = .register off := by
  simp [placeOf, registerBytes, h]

/-- Where the reserved offsets stand (R40). -/
theorem placeOf_reserved {off : Nat} (h : 0x140 ≤ off) (h' : off < 0x01000000) :
    placeOf off = .reserved := by
  unfold placeOf registerBytes apertureStart
  rw [if_neg (by omega), if_pos h']

/-- A read through an aperture: the hazard, or the cell. -/
theorem hostRead_aperture {off k o : Nat} (h : placeOf off = .aperture k o) (w : Width) (s : State) :
    hostRead off w s = if s.apertureHazard k then .fault .hazardAperture
      else .next ((s.readAperture k o w).1.record (.read off w) (s.readAperture k o w).2) := by
  unfold hostRead
  rw [h]

/-- A write through an aperture: the hazard, or the write. -/
theorem hostWrite_aperture {off k o : Nat} (h : placeOf off = .aperture k o) (w : Width) (v : Word)
    (s : State) :
    hostWrite off w v s = if s.apertureHazard k then .fault .hazardAperture
      else .next (s.writeAperture k o w v) := by
  unfold hostWrite
  rw [h]

/-- A read of the register block. -/
theorem hostRead_register {off : Nat} (h : off < 0x140) (w : Width) (s : State) :
    hostRead off w s
      = .next ((s.readRegister off w).1.record (.read off w) (s.readRegister off w).2) := by
  unfold hostRead
  rw [placeOf_register h]

/-- A write of the register block. -/
theorem hostWrite_register {off : Nat} (h : off < 0x140) (w : Width) (v : Word) (s : State) :
    hostWrite off w v s = .next (s.writeRegister off w v) := by
  unfold hostWrite
  rw [placeOf_register h]

/-- An access of the register block that is not 32 bits wide at a multiple of 4 is ill formed. -/
theorem registerAccessOk_eq_false {off : Nat} {w : Width} :
    registerAccessOk off w = false ↔ w ≠ .w32 ∨ off % 4 ≠ 0 := by
  unfold registerAccessOk
  simp only [Bool.and_eq_false_iff, decide_eq_false_iff_not, ne_eq]

/-- The cell an aperture access reaches, or none. -/
theorem apertureCell_eq_some {k o : Nat} {w : Width} {j : Fin Config.numSlots} :
    apertureCell k o w = some j ↔ w = .w8 ∧ o < Config.slotBytes ∧ k = j.val := by
  unfold apertureCell
  split
  · rename_i h
    rw [slotIndex?_eq_some]
    exact ⟨fun e => ⟨h.1, h.2, e⟩, fun e => e.2.2⟩
  · rename_i h
    simp only [reduceCtorEq, false_iff]
    exact fun e => h ⟨e.1, e.2.1⟩

end Sys2Proof.Machine
end

