-- ==== Sys2Proof/Laws/PerInstr.lean ====
section
/-! SUPPORT. Per-command laws of the encoding: a well-formed command's word decodes to it. -/

namespace Sys2Proof.Laws.RoundTrip

/-- The command's word, if it has one, decodes to the command (30_encoding.md R56 to R60). -/
def Statement (i : Instr) : Prop := i.wf = true → decode (encode i) = .ok i

/-- A law of every well-formed one-slot command follows from its sixteen words. -/
theorem of_words (make : Nat → Instr) (hwf : ∀ n, (make n).wf = slotFieldFits n)
    (h : ∀ n : Fin 16, decode (encode (make n.val)) = .ok (make n.val)) (sa : Nat) :
    Statement (make sa) := by
  intro hw
  have hlt : sa < 16 := by simpa [hwf, slotFieldFits] using hw
  exact h ⟨sa, hlt⟩

theorem nop : Statement .nop := fun _ => by decide
theorem crc : Statement .crc := fun _ => by decide
theorem create (sa : Nat) : Statement (.create sa) := of_words .create (fun _ => rfl) (by decide) sa
theorem adopt (sa : Nat) : Statement (.adopt sa) := of_words .adopt (fun _ => rfl) (by decide) sa
theorem ser (sa : Nat) : Statement (.ser sa) := of_words .ser (fun _ => rfl) (by decide) sa
theorem deser (sa : Nat) : Statement (.deser sa) := of_words .deser (fun _ => rfl) (by decide) sa
theorem clear (sa : Nat) : Statement (.clear sa) := of_words .clear (fun _ => rfl) (by decide) sa
theorem free (sa : Nat) : Statement (.free sa) := of_words .free (fun _ => rfl) (by decide) sa

theorem swap (sa sb : Nat) : Statement (.swap sa sb) := by
  intro hw
  simp only [Instr.wf, slotFieldFits, Bool.and_eq_true, decide_eq_true_eq] at hw
  have h : ∀ a b : Fin 16, decode (encode (.swap a.val b.val)) = .ok (.swap a.val b.val) := by decide
  exact h ⟨sa, hw.1⟩ ⟨sb, hw.2⟩

end Sys2Proof.Laws.RoundTrip
end

