-- ==== Sys2Proof/Tests/Slice0.lean ====
section
/-! SUPPORT. The model's own tests: ill-formed commands refused, command words written out from
30_encoding.md R60, single steps against 95_test_vectors.md, and a witness for the hypotheses of each
statement that has some. -/

namespace Sys2Proof.Machine.Tests

/-! ## Helpers -/

/-- The next state, if there is one. -/
def next? : Host.Outcome State Fault Refusal → Option State
  | .next t => some t
  | .fault _ => none
  | .refused _ => none

/-- The fault, if there is one. -/
def fault? : Host.Outcome State Fault Refusal → Option Fault
  | .next _ => none
  | .fault f => some f
  | .refused _ => none

/-- The state `s` with its operand registers set. -/
def operands (s : State) (tc src len dst cap : Word) : State :=
  { s with typeReg := tc, srcAddr := src, srcLen := len, dstAddr := dst, dstCap := cap }

/-- One step of the command word `w` issued in `s`, seen through `see`. -/
def runs {α : Type} (s : State) (w : Nat) (see : State → α) : Option α :=
  (next? (step (s.withFetchWord 32 w))).map see

/-- The host's access, seen through `see`. -/
def does {α : Type} (s : State) (acc : Access) (see : State → α) : Option α :=
  (next? (hostAccess acc s)).map see

/-- A state after power-on with bytes placed in `M`. -/
def placed (a : Nat) (bs : List Byte) : State := { State.reset with mem := cellsFrom a bs }

/-- A state after power-on with a three-byte "PLTE" chunk in slot 0 (95 P3). -/
def filled : State := State.reset.setSlot 0 ⟨true, 0x504C5445, 3, cellsFrom 0 [0xFF, 0x00, 0x00]⟩

/-- A latched command. -/
def latch (w tc src len dst cap : Word) : Latch := ⟨w, tc, src, len, dst, cap⟩

/-- A state with a command in flight. -/
def flying (s : State) (l : Latch) : State := { s with latch := some l, busy := true }

/-- The frame of an "IEND" chunk (95 L1.2). -/
def iendFrame : List Byte := [0x00, 0x00, 0x00, 0x00, 0x49, 0x45, 0x4E, 0x44, 0x51, 0xBD, 0x9F, 0x7D]

/-- The "IEND" frame with the standard CRC, which the engine rejects (95 P2). -/
def standardFrame : List Byte := [0x00, 0x00, 0x00, 0x00, 0x49, 0x45, 0x4E, 0x44, 0xAE, 0x42, 0x60, 0x82]

/-- Bytes placed in `M` are there. -/
theorem holds_mem (s : State) (a : Nat) (bs : List Byte) :
    State.holds { s with mem := cellsFrom a bs } a bs := by
  intro i h
  simp [State.readByte, lookup_cellsFrom, h]

/-- A frame's first four bytes are its length, whatever follows. -/
theorem holds_prefix {s : State} {a : Nat} {x y : List Byte} (h : s.holds a (x ++ y)) : s.holds a x := by
  intro i hi
  rw [h i (by simp; omega), List.getElem_append_left hi]

/-- What follows the first bytes of a list that is there. -/
theorem holds_rest {s : State} {a : Nat} {x y : List Byte} (h : s.holds a (x ++ y)) :
    s.holds (a + x.length) y := by
  intro i hi
  have := h (x.length + i) (by simp; omega)
  rw [List.getElem_append_right (by omega)] at this
  simpa [Nat.add_assoc] using this

/-! ## Well-formedness: an ill-formed command for each check (R56) -/

theorem test_wf_create_s16_refused : (Instr.create 16).wf = false := by decide
theorem test_wf_adopt_s16_refused : (Instr.adopt 16).wf = false := by decide
theorem test_wf_ser_s16_refused : (Instr.ser 16).wf = false := by decide
theorem test_wf_deser_s16_refused : (Instr.deser 16).wf = false := by decide
theorem test_wf_clear_s16_refused : (Instr.clear 16).wf = false := by decide
theorem test_wf_free_s16_refused : (Instr.free 16).wf = false := by decide
theorem test_wf_swap_first_s16_refused : (Instr.swap 16 15).wf = false := by decide
theorem test_wf_swap_second_s16_refused : (Instr.swap 15 16).wf = false := by decide

/-! ## Decoding: words written out from the patterns of R60, and the words of 95 L2.3 -/

theorem test_decode_nop : decode 0b0000000000000000_0000_0000_00000000#32 = .ok .nop := by decide
theorem test_decode_crc : decode 0b0000000000000000_0000_0000_00000001#32 = .ok .crc := by decide
theorem test_decode_create_s9 : decode 0b0000000000000000_0000_1001_00000010#32 = .ok (.create 9) := by
  decide
theorem test_decode_adopt_s6 : decode 0b0000000000000000_0000_0110_00000011#32 = .ok (.adopt 6) := by
  decide
theorem test_decode_ser_s3 : decode 0b0000000000000000_0000_0011_00000100#32 = .ok (.ser 3) := by decide
theorem test_decode_deser_s12 : decode 0b0000000000000000_0000_1100_00000101#32 = .ok (.deser 12) := by
  decide
theorem test_decode_clear_s5 : decode 0b0000000000000000_0000_0101_00000110#32 = .ok (.clear 5) := by
  decide
theorem test_decode_free_s10 : decode 0b0000000000000000_0000_1010_00000111#32 = .ok (.free 10) := by
  decide
theorem test_decode_swap_s1_s14 : decode 0b0000000000000000_1110_0001_00001000#32 = .ok (.swap 1 14) := by
  decide

theorem test_decode_reserved_bits : decode 0x80000002 = .error .reservedBits := by decide
theorem test_decode_reserved_opcode : decode 0x000000FF = .error .reservedOpcode := by decide
theorem test_decode_nop_with_slot : decode 0x00000100 = .error .unusedSlotField := by decide
theorem test_decode_free_with_second_slot : decode 0x00001007 = .error .unusedSlotField := by decide

/-- The checks stand in R59's order: a reserved opcode with a nonzero `RSV` is reported as reserved bits. -/
theorem test_decode_order : decode 0x00010009 = .error .reservedBits := by decide

theorem test_table_word : decodeTableWord 32 0x00002008 = some (.swap 0 2) := by decide
theorem test_table_word_refused : decodeTableWord 32 0x00000009 = none := by decide

/-- Mnemonics are case-insensitive (R66). -/
theorem test_mnemonic_case : rowNamed "dEser" = some ⟨"DESER", 0x00000005, 0xFFFFF0FF⟩ := by
  decide +kernel

/-! ## One step per command, against 95 L2.2 to L2.8 -/

/-- 95 L2.2 row 1. -/
theorem test_nop : runs State.reset 0x00000000 (fun t => (t.err, t.result, t.lastCmd, t.statusWord))
    = some (0, 0, 0, 0x00000002) := by decide

/-- 95 L2.2 row 2. -/
theorem test_crc_iend : runs (operands State.reset 0x49454E44 0 0 0 0) 0x00000001
    (fun t => (t.err, t.crcOut)) = some (0, 0x51BD9F7D) := by decide +kernel

/-- 95 L2.2 row 5: the last byte of `M` is reachable. -/
theorem test_crc_last_byte : runs (operands (placed 0xFFFFFFFF [0x41]) 0x49444154 0xFFFFFFFF 1 0 0) 0x00000001
    (fun t => (t.err, t.crcOut)) = some (0, 0xD61CF311) := by decide +kernel

/-- 95 L2.4 row 1, with three bytes. -/
theorem test_create : runs (operands (placed 0x1000 [0x00, 0x01, 0x02]) 0x49444154 0x1000 3 0 0) 0x00000002
    (fun t => (t.err, t.slot 0)) = some (0, ⟨true, 0x49444154, 3, [(0, 0x00), (1, 0x01), (2, 0x02)]⟩) := by
  decide

/-- 95 L2.4 row 4: one byte more than the slot holds. -/
theorem test_create_too_long : runs (operands State.reset 0x49444154 0x1000 0x00400001 0 0) 0x00000002
    (fun t => (t.err, (t.slot 0).full)) = some (3, false) := by decide

/-- 95 L2.5 row 1: the bytes the host put there become the chunk's. -/
theorem test_adopt : runs (operands (State.reset.writeRam 1 0 [0xFF, 0x00, 0x00]) 0x504C5445 0 3 0 0) 0x00000103
    (fun t => (t.err, t.slot 1)) = some (0, ⟨true, 0x504C5445, 3, [(0, 0xFF), (1, 0x00), (2, 0x00)]⟩) := by
  decide

/-- 95 L2.5 row 2: no buffer that large, and no allocation. -/
theorem test_adopt_too_long : runs (operands State.reset 0x504C5445 0 0x00400001 0 0) 0x00000103
    (fun t => t.err) = some 2 := by decide

/-- 95 P3 line 22. -/
theorem test_ser : runs (operands filled 0 0 0 0x4000 0x100) 0x00000004
    (fun t => (t.err, t.result, t.mem.map Prod.snd)) = some (0, 15, [0x00, 0x00, 0x00, 0x03, 0x50, 0x4C, 0x54,
      0x45, 0xFF, 0x00, 0x00, 0xE6, 0x1D, 0xF6, 0xC8]) := by decide +kernel

/-- 95 L2.6 row 6: the null test comes before the capacity. -/
theorem test_ser_null : runs (operands filled 0 0 0 0 5) 0x00000004 (fun t => (t.err, t.result, t.mem))
    = some (1, 0, []) := by decide

/-- 95 L2.7 row 1. -/
theorem test_deser : runs (operands (placed 0x3000 iendFrame) 0 0x3000 12 0 0) 0x00000005
    (fun t => (t.err, t.result, t.crcOut, t.crcRcvd, t.slot 0))
    = some (0, 12, 0x51BD9F7D, 0x51BD9F7D, ⟨true, 0x49454E44, 0, []⟩) := by decide +kernel

/-- 95 L2.7 row 6. -/
theorem test_deser_standard_crc : runs (operands (placed 0x3100 standardFrame) 0 0x3100 12 0 0) 0x00000205
    (fun t => (t.err, t.result, t.crcOut, t.crcRcvd, (t.slot 2).full))
    = some (6, 0, 0x51BD9F7D, 0xAE426082, false) := by decide +kernel

/-- 95 L2.8 row 1: the data is not zeroed. -/
theorem test_clear : runs filled 0x00000006 (fun t => (t.err, t.slot 0))
    = some (0, ⟨false, 0, 0, [(0, 0xFF), (1, 0x00), (2, 0x00)]⟩) := by decide

/-- 95 L2.8 row 3: the data is zeroed. -/
theorem test_free : runs filled 0x00000007 (fun t => (t.err, t.slot 0))
    = some (0, ⟨false, 0, 0, [(0, 0x00), (1, 0x00), (2, 0x00)]⟩) := by decide

/-- 95 L2.8 row 5, the written cells. -/
theorem test_swap : runs (filled.writeRam 1 0 [0xAA, 0xBB]) 0x00001008
    (fun t => (t.slot 0, (t.slot 1).slen, (t.slot 1).ram.head?))
    = some (⟨false, 0, 0, [(0, 0xAA), (1, 0xBB)]⟩, 3, some (0, 0xFF)) := by decide

/-- 95 L2.8 row 7. -/
theorem test_swap_missing_slot : runs filled 0x00004008 (fun t => (t.err, t.slots == filled.slots))
    = some (2, true) := by decide

/-- 95 P3 lines 30 to 33. -/
theorem test_illegal_command : runs State.reset 0x00000009 (fun t => (t.err, t.lastCmd)) = some (8, 9) := by
  decide

/-! ## Host accesses, against 95 L2.9 and L2.10 -/

/-- 95 L2.9 row 4: a byte write to `CTRL`. -/
theorem test_narrow_register_write : does State.reset (.write 0x00C .w8 1)
    (fun t => (t.ctrlWord, t.statusWord)) = some (0, 8) := by decide

/-- 95 L2.9 row 7: `BUSY` is read-only. -/
theorem test_busy_read_only : does State.reset (.write 0x010 .w32 1) (fun t => t.statusWord) = some 0 := by
  decide

/-- 95 P3 line 8: a FULL slot's aperture refuses a write. -/
theorem test_full_aperture_write : does filled (.write 0x01000000 .w8 0x11)
    (fun t => (t.statusWord, t.ramCell 0 0)) = some (8, some 0xFF) := by decide

/-- 95 L2.10 row 2: bit 0 of the resetting write is ignored, and the RAM stays. -/
theorem test_soft_reset : does filled (.write 0x00C .w32 0x80000001)
    (fun t => (t.irqEn, (t.slot 0).full, t.ramCell 0 0)) = some (false, false, some 0xFF) := by decide +kernel

/-- A device offset past the window does not exist (R40). -/
theorem test_past_the_window : fault? (hostAccess (.read 0x05000000 .w8) State.reset) = some .outsideWindow := by
  decide

/-! ## The first step after reset runs the placed word -/

theorem test_first_step_nop : step (State.reset.withFetchWord 32 0x00000000)
    = exec .nop (State.reset.withFetchWord 32 0x00000000) := rfl
theorem test_first_step_crc : step (State.reset.withFetchWord 32 0x00000001)
    = exec .crc (State.reset.withFetchWord 32 0x00000001) := rfl
theorem test_first_step_swap : step (State.reset.withFetchWord 32 0x0000F008)
    = exec (.swap 0 15) (State.reset.withFetchWord 32 0x0000F008) := rfl

/-! ## Witnesses: for each statement with hypotheses, a state and operands that meet them all. Where a
statement has several clauses, one conjunct for each, at a value where the clause begins or ends. -/

/-- An idle latch: every operand 0. -/
def latch0 (w : Word) : Latch := latch w 0 0 0 0 0

/-- Obligations.WellFormedCommandsRoundTrip: both slot fields at their last value. -/
theorem witness_well_formed : (Instr.swap 15 15).wf = true := by decide

/-- Obligations.DecodedCommandsEncodeBack. -/
theorem witness_decoded : decode 0x0000FF08 = .ok (.swap 15 15) := by decide

/-- Obligations.MaskAndMatchSelectTheRow, clause by clause, and the last clause of
Obligations.CmdWriteIssuesOrOverruns: an ill-formed word in flight with the engine to move. -/
theorem witness_rows :
    (∃ r ∈ opcodeRows, r.selects 0x0000FF08 = true) ∧ decode 0x00000F02 = .ok (.create 15)
      ∧ (let s := flying State.reset (latch0 0x00000009);
        s.latch = some (latch0 0x00000009) ∧ s.engineMoves
          ∧ decode (latch0 0x00000009).cmd = .error .reservedOpcode
          ∧ ∀ r ∈ opcodeRows, r.selects (latch0 0x00000009).cmd = false) :=
  ⟨by decide, by decide, rfl, .inl rfl, by decide, by decide⟩

/-- Obligations.IllFormedWordsCompleteWithIllegalCommand: a word for each way to be ill formed, and a word
with every field at its last value that is not. -/
theorem witness_ill_formed :
    (flying State.reset (latch0 0x00010000)).latch = some (latch0 0x00010000)
      ∧ (flying State.reset (latch0 0x00010000)).engineMoves
      ∧ (0x00010000 : Word).extractLsb' 16 16 ≠ 0 ∧ 8 < ((0x00000009 : Word).extractLsb' 0 8).toNat
      ∧ (((0x00000101 : Word).extractLsb' 0 8).toNat ≤ 1 ∧ (0x00000101 : Word).extractLsb' 8 4 ≠ 0)
      ∧ (((0x00001001 : Word).extractLsb' 0 8).toNat ≤ 1 ∧ (0x00001001 : Word).extractLsb' 12 4 ≠ 0)
      ∧ (((0x00001007 : Word).extractLsb' 0 8).toNat ≤ 7 ∧ (0x00001007 : Word).extractLsb' 12 4 ≠ 0)
      ∧ ¬ ((0x0000FF08 : Word).extractLsb' 16 16 ≠ 0 ∨ 8 < ((0x0000FF08 : Word).extractLsb' 0 8).toNat
        ∨ (((0x0000FF08 : Word).extractLsb' 0 8).toNat ≤ 1
          ∧ ((0x0000FF08 : Word).extractLsb' 8 4 ≠ 0 ∨ (0x0000FF08 : Word).extractLsb' 12 4 ≠ 0))
        ∨ (((0x0000FF08 : Word).extractLsb' 0 8).toNat ≤ 7 ∧ (0x0000FF08 : Word).extractLsb' 12 4 ≠ 0))
      ∧ (flying filled (latch0 0x0000FF08)).engineMoves
      ∧ ∃ t, step (flying filled (latch0 0x0000FF08)) = .next t :=
  ⟨rfl, .inl rfl, by decide, by decide, by decide, by decide, by decide, by decide, .inl rfl, _, rfl⟩

/-- Obligations.NopOnlyCompletes, the last clause: opcode `0x00` with each other field at 1. -/
theorem witness_nop_words : ((0x00000100 : Word).extractLsb' 0 8 = 0 ∧ (0x00000100 : Word) ≠ 0)
    ∧ (0x00001000 : Word).extractLsb' 0 8 = 0 ∧ (0x00010000 : Word).extractLsb' 0 8 = 0 := by decide

/-- Obligations.StepRunsTheDecodedCommand. -/
theorem witness_step : (flying State.reset (latch0 0x00000304)).engineMoves
    ∧ decode (latch0 0x00000304).cmd = .ok (.ser 3)
    ∧ platformHazard (flying State.reset (latch0 0x00000304)) (.ser 3) (latch0 0x00000304) = none :=
  ⟨.inl rfl, by decide, by decide⟩

/-- Obligations.HostMovesUntilTheDelayRunsOut, clause by clause. -/
theorem witness_host_moves :
    (State.reset.setProgram [.poll]).latch = none ∧ (State.reset.setProgram [.poll]).program = [.poll]
      ∧ (let s := { flying (State.reset.setProgram [.poll]) (latch0 0) with delay := 1 };
        s.latch = some (latch0 0) ∧ s.program = [.poll] ∧ s.delay ≠ 0)
      ∧ State.reset.latch = none ∧ State.reset.program = [] := by decide

/-- Obligations.CommandsInFlightComplete, and every other statement whose only hypothesis is a latched
command (`NOP`, `CLEAR`, `FREE`, `SWAP`). -/
theorem witness_in_flight : (flying filled (latch0 0)).latch = some (latch0 0) := rfl

/-- Obligations.MissingSlotsRaiseIllegalArgument and SwapExchangesWholeSlots: the first slot number the configuration lacks, in either
operand. -/
theorem witness_missing_slot : (flying State.reset (latch0 0x00004008)).latch = some (latch0 0x00004008)
    ∧ (∃ n ∈ namedSlots (.swap 0 4), Config.numSlots ≤ n) ∧ (∃ n ∈ namedSlots (.swap 4 0), Config.numSlots ≤ n) := by
  decide

/-- Obligations.CrcStoresTheChunkCrc: the empty range at address 0, and the last byte of `M`. -/
theorem witness_crc :
    (let l := latch 1 0x49454E44 0 0 0 0;
      l.srcLen = 0 ∧ l.srcAddr.toNat + l.srcLen.toNat ≤ 2 ^ 32
        ∧ (flying State.reset l).holds l.srcAddr.toNat [])
      ∧ (let l := latch 1 0x49454E44 0xFFFFFFFF 1 0 0;
        l.srcAddr ≠ 0 ∧ l.srcAddr.toNat + l.srcLen.toNat ≤ 2 ^ 32
          ∧ (flying (placed 0xFFFFFFFF [0x41]) l).holds l.srcAddr.toNat [0x41]) :=
  ⟨⟨rfl, by decide, fun i h => absurd h (Nat.not_lt_zero i)⟩, by decide, by decide,
    holds_mem (flying State.reset _) 0xFFFFFFFF [0x41]⟩

/-- Obligations.CrcRejectsNullThenWrappingRanges: one byte at address 0, and one byte past the top. -/
theorem witness_crc_rejects : ((1 : Word) ≠ 0 ∧ (0 : Word) = 0)
    ∧ (0xFFFFFFFF : Word) ≠ 0 ∧ 2 ^ 32 < (0xFFFFFFFF : Word).toNat + (2 : Word).toNat := by decide

/-- Obligations.CreateCopiesTheRangeIntoTheSlot: the empty chunk at address 0, and a whole slot that ends
at the top of `M`. -/
theorem witness_create :
    (let l := latch 2 0x49454E44 0 0 0 0;
      ((flying State.reset l).slot 3).full = false ∧ l.srcLen = 0 ∧ typeIsValid l.typeCode = true
        ∧ l.srcAddr.toNat + l.srcLen.toNat ≤ 2 ^ 32 ∧ l.srcLen.toNat ≤ Config.slotBytes)
      ∧ (let l := latch 2 0x49454E44 0xFFC00000 0x00400000 0 0;
        ((flying State.reset l).slot 3).full = false ∧ l.srcAddr ≠ 0 ∧ typeIsValid l.typeCode = true
          ∧ l.srcAddr.toNat + l.srcLen.toNat ≤ 2 ^ 32 ∧ l.srcLen.toNat ≤ Config.slotBytes) := by
  decide

/-- Obligations.CreateRejectsInOrder, case by case. -/
theorem witness_create_rejects :
    ((flying filled (latch0 2)).slot 0).full = true ∧ ((1 : Word) ≠ 0 ∧ (0 : Word) = 0)
      ∧ Config.maxChunkLen < (0x80000000 : Word).toNat ∧ typeIsValid 0x49487B52 = false
      ∧ 2 ^ 32 < (0xFFFFFFF8 : Word).toNat + (9 : Word).toNat
      ∧ (let l := latch 2 0x49444154 0x1000 0x00400001 0 0;
        ((flying State.reset l).slot 0).full = false ∧ l.srcAddr ≠ 0 ∧ l.srcLen.toNat ≤ Config.maxChunkLen
          ∧ typeIsValid l.typeCode = true ∧ l.srcAddr.toNat + l.srcLen.toNat ≤ 2 ^ 32
          ∧ Config.slotBytes < l.srcLen.toNat) := by decide

/-- Obligations.AdoptFillsTheSlotInPlace: a whole slot. -/
theorem witness_adopt :
    let l := latch 3 0x504C5445 0 0x00400000 0 0
    ((flying State.reset l).slot 1).full = false ∧ typeIsValid l.typeCode = true
      ∧ l.srcLen.toNat ≤ Config.slotBytes := by decide

/-- Obligations.AdoptRejects, case by case. -/
theorem witness_adopt_rejects :
    ((flying filled (latch0 3)).slot 0).full = true ∧ Config.maxChunkLen < (0x80000000 : Word).toNat
      ∧ typeIsValid 0x504C5420 = false ∧ Config.slotBytes < (0x00400001 : Word).toNat := by decide

/-- Obligations.SerWritesTheFrame: exactly the capacity, ending exactly at the top of `M`. -/
theorem witness_ser :
    let l := latch 4 0 0 0 0xFFFFFFF1 15
    ((flying filled l).slot 0).full = true ∧ l.dstAddr ≠ 0 ∧ l.dstAddr.toNat + l.dstCap.toNat ≤ 2 ^ 32
      ∧ ((flying filled l).slot 0).slen.toNat + 12 ≤ l.dstCap.toNat := by decide

/-- Obligations.SerReportsTheRequiredSize: the probe, and one byte too few. -/
theorem witness_ser_size :
    (let l := latch 4 0 0 0 0 0;
      ((flying filled l).slot 0).full = true ∧ l.dstCap = 0 ∧ l.dstAddr.toNat + l.dstCap.toNat ≤ 2 ^ 32
        ∧ ((flying filled l).slot 0).slen.toNat ≤ Config.maxChunkLen
        ∧ l.dstCap.toNat < ((flying filled l).slot 0).slen.toNat + 12)
      ∧ (let l := latch 4 0 0 0 0x2000 14;
        l.dstAddr ≠ 0 ∧ l.dstAddr.toNat + l.dstCap.toNat ≤ 2 ^ 32
          ∧ l.dstCap.toNat < ((flying filled l).slot 0).slen.toNat + 12) := by decide

/-- Obligations.SerRejectsInOrder, clause by clause. -/
theorem witness_ser_rejects :
    ((flying filled (latch0 4)).slot 1).full = false
      ∧ (((flying filled (latch 4 0 0 0 0 1)).slot 0).full = true ∧ (1 : Word) ≠ 0 ∧ (0 : Word) = 0)
      ∧ (((flying filled (latch 4 0 0 0 0xFFFFFFF8 9)).slot 0).full = true ∧ (0xFFFFFFF8 : Word) ≠ 0
        ∧ 2 ^ 32 < (0xFFFFFFF8 : Word).toNat + (9 : Word).toNat) := by decide

/-- Obligations.DeserAcceptsAFrame: the empty frame, ending exactly at the top of `M`, of a valid type. -/
theorem witness_deser :
    let l := latch 5 0 0xFFFFFFF4 12 0 0
    let s := flying { State.reset with mem := cellsFrom 0xFFFFFFF4 (frame 0 0x49454E44 []) } l
    (s.slot 2).full = false ∧ l.srcAddr ≠ 0 ∧ l.srcAddr.toNat + l.srcLen.toNat ≤ 2 ^ 32
      ∧ ([] : List Byte).length ≤ Config.slotBytes ∧ ([] : List Byte).length + 12 ≤ l.srcLen.toNat
      ∧ (Config.deserValidatesType = true → typeIsValid 0x49454E44 = true)
      ∧ s.holds l.srcAddr.toNat (frame (BitVec.ofNat 32 ([] : List Byte).length) 0x49454E44 []) :=
  ⟨by decide, by decide, by decide, by decide, by decide, fun _ => by decide,
    holds_mem (flying State.reset _) 0xFFFFFFF4 _⟩

/-- Obligations.DeserKeepsAMismatchedFrameOut: the standard CRC instead of the engine's. -/
theorem witness_deser_mismatch :
    let l := latch 5 0 0x3100 12 0 0
    let s := flying { State.reset with mem := cellsFrom 0x3100 standardFrame } l
    (s.slot 2).full = false ∧ l.srcAddr ≠ 0 ∧ l.srcAddr.toNat + l.srcLen.toNat ≤ 2 ^ 32
      ∧ ([] : List Byte).length ≤ Config.slotBytes ∧ ([] : List Byte).length + 12 ≤ l.srcLen.toNat
      ∧ (Config.deserValidatesType = true → typeIsValid 0x49454E44 = true)
      ∧ (0xAE426082 : Word) ≠ chunkCrc 0x49454E44 []
      ∧ s.holds l.srcAddr.toNat (toBE32 (BitVec.ofNat 32 ([] : List Byte).length) ++ toBE32 0x49454E44
          ++ ([] : List Byte) ++ toBE32 0xAE426082) :=
  ⟨by decide +kernel, by decide, by decide, by decide, by decide, fun _ => by decide +kernel, by decide +kernel,
    holds_mem (flying State.reset _) 0x3100 standardFrame⟩

/-- Obligations.DeserRejectsInOrder, clause by clause: FULL, null, wrapping, three bytes, `MAX_CHUNK_LEN + 1`,
one byte missing, an invalid type, `SLOT_BYTES + 1`. -/
theorem witness_deser_rejects :
    ((flying filled (latch0 5)).slot 0).full = true
      ∧ ((State.reset.slot 0).full = false ∧ (1 : Word) ≠ 0 ∧ (0 : Word) = 0)
      ∧ ((0xFFFFFFF8 : Word) ≠ 0 ∧ 2 ^ 32 < (0xFFFFFFF8 : Word).toNat + (9 : Word).toNat)
      ∧ ((0x3000 : Word) ≠ 0 ∧ (0x3000 : Word).toNat + (3 : Word).toNat ≤ 2 ^ 32 ∧ (3 : Word).toNat < 4)
      ∧ (4 ≤ (4 : Word).toNat ∧ (placed 0x3000 (toBE32 0x80000000)).holds 0x3000 (toBE32 0x80000000)
        ∧ Config.maxChunkLen < (0x80000000 : Word).toNat)
      ∧ ((placed 0x3000 (toBE32 0x7FFFFFFF)).holds 0x3000 (toBE32 0x7FFFFFFF)
        ∧ (0x7FFFFFFF : Word).toNat ≤ Config.maxChunkLen
        ∧ (0x8000000A : Word).toNat < (0x7FFFFFFF : Word).toNat + 12)
      ∧ (let s := placed 0x3000 (toBE32 0 ++ toBE32 0x31323334);
        s.holds 0x3000 (toBE32 0) ∧ s.holds (0x3000 + 4) (toBE32 0x31323334)
          ∧ (0 : Word).toNat + 12 ≤ (12 : Word).toNat ∧ typeIsValid 0x31323334 = false)
      ∧ (let s := placed 0x3000 (toBE32 0x00400001 ++ toBE32 0x49444154);
        s.holds 0x3000 (toBE32 0x00400001) ∧ s.holds (0x3000 + 4) (toBE32 0x49444154)
          ∧ (0x00400001 : Word).toNat + 12 ≤ (0x0040000D : Word).toNat ∧ (Config.deserValidatesType = true → typeIsValid 0x49444154 = true)
          ∧ Config.slotBytes < (0x00400001 : Word).toNat) := by
  refine ⟨by decide, by decide, by decide, by decide,
    ⟨by decide, holds_mem State.reset _ _, by decide⟩,
    ⟨holds_mem State.reset _ _, by decide, by decide⟩, ?_, ?_⟩
  · exact ⟨holds_prefix (holds_mem State.reset 0x3000 _), holds_rest (holds_mem State.reset 0x3000 _),
      by decide, by decide⟩
  · exact ⟨holds_prefix (holds_mem State.reset 0x3000 _), holds_rest (holds_mem State.reset 0x3000 _),
      by decide, fun _ => by decide, by decide⟩

/-- Obligations.OnlySerChangesHostMemory, UnnamedSlotsStay and CrcRegistersChangeOnlyByTheirCommands: a
command that is none of `CRC`, `SER` and `DESER`, and a slot it does not name. -/
theorem witness_frame : ∃ t, exec (.clear 0) (flying filled (latch0 6)) = .next t
    ∧ (∀ n, Instr.clear 0 ≠ .ser n) ∧ (∀ n, Instr.clear 0 ≠ .deser n) ∧ Instr.clear 0 ≠ .crc
    ∧ (3 : Fin Config.numSlots).val ∉ namedSlots (.clear 0) :=
  ⟨_, rfl, by simp, by simp, by simp, by decide⟩

/-- Obligations.CrcRegistersChangeOnlyByTheirCommands, the last clause: an error other than
`ChecksumMismatch`. -/
theorem witness_frame_error : ∃ t, exec (.deser 0) (flying filled (latch0 5)) = .next t
    ∧ t.err ≠ ErrorKind.ok.code ∧ t.err ≠ ErrorKind.checksumMismatch.code := ⟨_, rfl, by decide⟩

/-- Obligations.SerChangesOnlyTheFrameBytes: the last byte before the frame and the first one after it, and
an error. -/
theorem witness_ser_frame :
    (∃ t, exec (.ser 0) (flying filled (latch 4 0 0 0 0x2000 15)) = .next t)
      ∧ slotIndex? 0 = some (0 : Fin Config.numSlots) ∧ 0x1FFF < (0x2000 : Word).toNat
      ∧ (0x2000 : Word).toNat + (filled.slot 0).slen.toNat + 12 ≤ 0x200F
      ∧ ∃ t, exec (.ser 1) (flying filled (latch 4 0 0 0 0x2000 15)) = .next t
        ∧ t.err ≠ ErrorKind.ok.code :=
  ⟨⟨_, rfl⟩, by decide, by decide, by decide, _, rfl, by decide⟩

/-- Obligations.CellsPastTheDataStay, clause by clause. -/
theorem witness_cells :
    (∃ t, exec (.create 1) (flying filled (latch 2 0x49454E44 0 0 0 0)) = .next t)
      ∧ (∃ t, exec (.deser 1) (flying (placed 0x3000 (toBE32 0)) (latch 5 0 0x3000 12 0 0)) = .next t)
      ∧ (flying (placed 0x3000 (toBE32 0)) (latch 5 0 0x3000 12 0 0)).holds 0x3000 (toBE32 0)
      ∧ (∃ t, exec (.free 0) (flying filled (latch0 7)) = .next t) ∧ (filled.slot 0).slen.toNat ≤ 3
      ∧ (∃ t, exec (.adopt 1) (flying filled (latch0 3)) = .next t)
      ∧ ∃ t, exec (.clear 0) (flying filled (latch0 6)) = .next t :=
  ⟨⟨_, rfl⟩, ⟨_, rfl⟩, holds_mem (flying State.reset _) 0x3000 _, ⟨_, rfl⟩, by decide, ⟨_, rfl⟩, _, rfl⟩

/-- Obligations.EngineIgnoresByteZero: memories that differ in `M[0]` alone. -/
theorem witness_byte_zero :
    (∀ a, a ≠ 0 → State.readByte { flying filled (latch0 4) with mem := [(0, 0x5A)] } a
        = (flying filled (latch0 4)).readByte a)
      ∧ ∃ t, exec (.ser 0) (flying filled (latch0 4)) = .next t := by
  refine ⟨fun a h => ?_, _, rfl⟩
  have h' : (0 : Nat) ≠ a := h.symm
  simp [State.readByte, Memory.lookup_cons, h', flying, filled, State.setSlot, State.reset]

/-- Obligations.CommandsUseTheLatchedOperands. -/
theorem witness_latched_operands :
    ∃ t, exec .crc (flying State.reset (latch 1 0x49454E44 0 0 0 0)) = .next t := ⟨_, rfl⟩

/-- Obligations.CmdWriteIssuesOrOverruns and PseudoStatementsExpand, clause by clause. -/
theorem witness_cmd_write : State.reset.busy = false ∧ (flying State.reset (latch0 0)).busy = true := ⟨rfl, rfl⟩

/-- R64: `set` keeps the order its operands are written in. -/
theorem test_set_order : (Stmt.set [(.srcLen, 3), (.typeReg, 0x49444154)]).accesses
    = [.write 0x028 .w32 3, .write 0x020 .w32 0x49444154] := rfl

/-- Obligations.RegisterMapReads and RegisterWritesReachTheirRegister: the ends of their ranges. -/
theorem witness_registers : (4 ≤ 4 ∧ 4 < 16) ∧ 15 < 16 ∧ (0x7FFFFFFF : Word).getLsbD 31 = false
    ∧ (0x034 ≤ 0x034 ∧ 0x034 % 4 = 0) ∧ 0x13C < 0x140 ∧ 0x13C % 4 = 0 := by decide

/-- Obligations.IllFormedRegisterAccessesAreRefused: a narrow access, and the last misaligned offset. -/
theorem witness_ill_formed_access : (0x000 < 0x140 ∧ Width.w16 ≠ .w32) ∧ 0x13F < 0x140 ∧ 0x13F % 4 ≠ 0 := by
  decide

/-- Obligations.ApertureReadsReturnCells and ApertureWritesFillEmptySlots: the last cell of the last slot,
the first slot the configuration lacks, the last aperture, a FULL slot, and a slot beside the one a command
in flight names. -/
theorem witness_aperture :
    (3 < 16 ∧ 0x003FFFFF < 0x00400000 ∧ (flying filled (latch0 6)).apertureHazard 3 = false
        ∧ 3 = (3 : Fin Config.numSlots).val ∧ ((flying filled (latch0 6)).slot 3).full = false)
      ∧ (Config.numSlots ≤ 4 ∧ (flying filled (latch0 6)).apertureHazard 4 = false)
      ∧ (Config.numSlots ≤ 15 ∧ 15 < 16 ∧ (flying filled (latch0 6)).apertureHazard 15 = false)
      ∧ Width.w16 ≠ .w8
      ∧ filled.apertureHazard 0 = false ∧ ∃ k : Fin Config.numSlots, 0 = k.val ∧ (filled.slot k).full = true := by
  decide

/-- Obligations.HostMemoryAccesses: the first byte past a command's input range. -/
theorem witness_host_memory :
    let s := flying State.reset (latch 1 0 0x1000 16 0 0)
    0x1010 < 2 ^ 32 ∧ s.hasMemory 0x1010 = true ∧ s.outputHazard 0x1010 = false
      ∧ s.inputHazard 0x1010 = false := by decide

/-- Obligations.RacingAccessesFault, clause by clause: the last byte of an input and of an output range, and
each slot of a `SWAP`. -/
theorem witness_racing :
    (let l := latch 1 0 0x1000 16 0 0;
      decode l.cmd = .ok .crc ∧ l.srcAddr.toNat ≤ 0x100F
        ∧ 0x100F < l.srcAddr.toNat + l.srcLen.toNat)
      ∧ (let l := latch 0x00000004 0 0 0 0xFFFFFFF0 16;
        decode l.cmd = .ok (.ser 0)
          ∧ l.dstAddr.toNat ≤ 0xFFFFFFFF ∧ 0xFFFFFFFF < l.dstAddr.toNat + l.dstCap.toNat
          ∧ 0xFFFFFFFF < 2 ^ 32)
      ∧ decode (latch0 0x0000F108).cmd = .ok (.swap 1 15) ∧ 1 ∈ namedSlots (.swap 1 15)
      ∧ 15 ∈ namedSlots (.swap 1 15) ∧ 15 < 16 := by decide

/-- Obligations.UnbackedOperandRangesFault: an input range and an output range whose last byte is the
first one without memory. -/
theorem witness_unbacked :
    (let l := latch 1 0 0x1000 0x1001 0 0;
      let s := { flying State.reset l with platform := [⟨0x2000, 1, .unbacked⟩] }
      decode l.cmd = .ok .crc ∧ inputRange .crc l = some (0x1000, 0x1001) ∧ 0x1000 ≤ 0x2000
        ∧ 0x2000 < 0x1000 + 0x1001 ∧ s.hasMemory 0x2000 = false)
      ∧ (let l := latch 4 0 0 0 0x1000 0x1001;
        let s := { flying State.reset l with platform := [⟨0x2000, 1, .device⟩] }
        decode l.cmd = .ok (.ser 0) ∧ outputRange (.ser 0) l = some (0x1000, 0x1001)
          ∧ s.hasMemory 0x2000 = false)
      ∧ ({ flying State.reset (latch0 1) with platform := [⟨0x2000, 1, .device⟩] } : State).engineMoves :=
  ⟨by decide, by decide, .inl rfl⟩

/-- Obligations.SoftResetResetsTheEngine and AbandonedCommandsLeaveOtherStorage: the resetting bit, a state
with no command in flight, an ill-formed word in flight, and each shape of command. -/
theorem witness_soft_reset :
    (0x80000001 : Word).getLsbD 31 = true ∧ filled.latch = none
      ∧ (flying filled (latch0 9)).latch = some (latch0 9) ∧ decode (latch0 9).cmd = .error .reservedOpcode
      ∧ decode (latch 0x00000004 0 0 0 0x2000 16).cmd = .ok (.ser 0)
      ∧ (0x1FFF < (0x2000 : Word).toNat ∧ (0x2000 : Word).toNat + (16 : Word).toNat ≤ 0x2010)
      ∧ decode (latch 0x00000102 0 0x2000 16 0 0).cmd = .ok (.create 1)
      ∧ (0 : Fin Config.numSlots).val ∉ namedSlots (.create 1) ∧ (16 : Word).toNat ≤ 16
      ∧ decode (latch 0x00000105 0 0x2000 16 0 0).cmd = .ok (.deser 1)
      ∧ decode (latch0 0x00000007).cmd = .ok (.free 0) ∧ (filled.slot 0).slen.toNat ≤ 3
      ∧ decode (latch0 0x00000103).cmd = .ok (.adopt 1) ∧ decode (latch0 0x00000006).cmd = .ok (.clear 0) := by
  decide

/-- Obligations.InterruptFollowsDone, clause by clause. -/
theorem witness_interrupt :
    (∃ t, exec .nop (flying { State.reset with irqEn := true } (latch0 0)) = .next t)
      ∧ ((flying State.reset (latch0 9)).engineMoves ∧ ∃ t, step (flying State.reset (latch0 9)) = .next t)
      ∧ (∃ t, (0x00000002 : Word).getLsbD 1 = true ∧ hostAccess (.write 0x010 .w32 0x00000002) filled = .next t)
      ∧ (∃ t, (0x00000000 : Word).getLsbD 0 = false ∧ hostAccess (.write 0x00C .w32 0) filled = .next t)
      ∧ (∃ t, (0x80000001 : Word).getLsbD 31 = true
          ∧ hostAccess (.write 0x00C .w32 0x80000001) filled = .next t)
      ∧ ∃ t, filled.busy = false ∧ hostAccess (.write 0x014 .w32 0) filled = .next t :=
  ⟨⟨_, rfl⟩, ⟨.inl rfl, _, rfl⟩, ⟨_, by decide, rfl⟩, ⟨_, by decide, rfl⟩, ⟨_, by decide, rfl⟩, _, rfl, rfl⟩

/-- The invariant holds with a chunk in a slot and a command in flight. -/
theorem inv_flying : (flying filled (latch0 6)).Inv := by
  refine ⟨rfl, fun _ => rfl, by decide, fun k => ?_, Memory.wfBelow_nil _⟩
  have legal : ∀ j : Fin Config.numSlots, (State.reset.slot j).Legal := fun j => by
    fin_cases j <;> exact Slot.legal_reset
  have h : (flying filled (latch0 6)).slot k = filled.slot k := rfl
  rw [h, filled, State.slot_setSlot]
  split
  · exact ⟨by simp, by decide, by decide⟩
  · exact legal k

/-- Obligations.StepKeepsTheInvariant and CommandInFlightEndsInBoundedSteps. -/
theorem witness_inv_step : (flying filled (latch0 6)).Inv ∧ (flying filled (latch0 6)).latch.isSome = true
    ∧ ∃ t, step (flying filled (latch0 6)) = .next t := ⟨inv_flying, rfl, _, rfl⟩

/-- Obligations.FullSlotTypesAreValidOrCarried: a chunk that stays. -/
theorem witness_full_slot : ∃ t, step filled = .next t ∧ (t.slot 0).full = true := ⟨_, rfl, by decide⟩

/-- Obligations.SingleByteChangesChangeTheCrc. -/
theorem witness_bytes_differ : (0x00 : Byte) ≠ 0x80 := by decide

/-- Obligations.TamperedFramesNeverDeserialize: the first type byte of the "IEND" frame replaced by one
that is no letter. -/
theorem witness_tampered :
    let l := latch 5 0 0x3000 12 0 0
    let f := (frame 0 0x49454E44 []).set 4 0x40
    let s := flying { State.reset with mem := cellsFrom 0x3000 f } l
    (s.slot 0).full = false ∧ l.srcAddr ≠ 0 ∧ l.srcAddr.toNat + l.srcLen.toNat ≤ 2 ^ 32
      ∧ ([] : List Byte).length ≤ Config.slotBytes ∧ ([] : List Byte).length + 12 ≤ l.srcLen.toNat
      ∧ (Config.deserValidatesType = true → typeIsValid 0x49454E44 = true) ∧ 4 < ([] : List Byte).length + 12
      ∧ (frame (BitVec.ofNat 32 ([] : List Byte).length) 0x49454E44 [])[4]? ≠ some 0x40
      ∧ s.holds l.srcAddr.toNat ((frame (BitVec.ofNat 32 ([] : List Byte).length) 0x49454E44 []).set 4 0x40) :=
  ⟨by decide, by decide, by decide, by decide, by decide, fun _ => by decide, by decide,
    by decide, holds_mem (flying State.reset _) 0x3000 _⟩

/-- Obligations.CreatedChunksSurviveTheRoundTrip. -/
theorem witness_round_trip :
    let l := latch 2 0x49444154 0x1000 2 0 0
    let l₂ := latch 4 0 0 0 0x2000 14
    let l₃ := latch 0x00000305 0 0x2000 14 0 0
    let d : List Byte := [0x00, 0x01]
    let s := flying (placed 0x1000 d) l
    (0 : Fin Config.numSlots) ≠ 3 ∧ (s.slot 0).full = false ∧ (s.slot 3).full = false
      ∧ typeIsValid l.typeCode = true ∧ d.length = l.srcLen.toNat ∧ d.length ≤ Config.slotBytes
      ∧ l.srcAddr ≠ 0 ∧ l.srcAddr.toNat + l.srcLen.toNat ≤ 2 ^ 32 ∧ s.holds l.srcAddr.toNat d
      ∧ l₂.dstAddr ≠ 0 ∧ d.length + 12 ≤ l₂.dstCap.toNat ∧ l₂.dstAddr.toNat + l₂.dstCap.toNat ≤ 2 ^ 32
      ∧ l₃.srcAddr = l₂.dstAddr ∧ d.length + 12 ≤ l₃.srcLen.toNat
      ∧ l₃.srcAddr.toNat + l₃.srcLen.toNat ≤ 2 ^ 32 :=
  ⟨by decide, by decide, by decide, by decide, by decide, by decide, by decide, by decide,
    holds_mem (flying State.reset _) 0x1000 _, by decide, by decide, by decide, rfl, by decide, by decide⟩

/-- Obligations.DeviceWindow: the first and the last reserved offset, and both sides of the window's end. -/
theorem witness_window : (0x140 ≤ 0x140 ∧ 0x140 < 0x01000000) ∧ (0x140 ≤ 0x00FFFFFF ∧ 0x00FFFFFF < 0x01000000)
    ∧ 0x04FFFFFF < 0x05000000 ∧ ¬ 0x05000000 < 0x05000000 := by decide

end Sys2Proof.Machine.Tests
end

/-! SUPPORT. The rules the statements about registers, issue and interrupt rest on: an aligned access of a
register by its name, the end of a command's rule in a completion, and the engine's turn. -/

namespace Sys2Proof.Machine

/-! ## Accesses of a register by its name -/

/-- The offsets of R16 are distinct: each names its own register. -/
@[simp] theorem regAt_offset (r : Reg) : regAt r.offset = some r := by
  cases r with
  | slotState k | slotType k | slotLen k => revert k; decide
  | _ => rfl

theorem Reg.offset_lt (r : Reg) : r.offset < 0x140 := by
  cases r with
  | slotState k | slotType k | slotLen k => simp only [Reg.offset]; omega
  | _ => decide

theorem Reg.offset_aligned (r : Reg) : r.offset % 4 = 0 := by
  cases r with
  | slotState k | slotType k | slotLen k => simp only [Reg.offset]; omega
  | _ => rfl

@[simp] theorem registerAccessOk_offset (r : Reg) : registerAccessOk r.offset .w32 = true := by
  simp [registerAccessOk, r.offset_aligned]

theorem hostAccess_write_offset (r : Reg) (v : Word) (s : State) :
    hostAccess (.write r.offset .w32 v) s = .next (s.writeReg v r) := by
  simp [hostAccess, hostWrite_register r.offset_lt, State.writeRegister]

theorem eq_writeReg_of_hostAccess (r : Reg) {v : Word} {s t : State}
    (h : hostAccess (.write r.offset .w32 v) s = .next t) : t = s.writeReg v r := by
  rw [hostAccess_write_offset] at h
  exact (Host.Outcome.next.inj h).symm

theorem hostAccess_read_offset (r : Reg) (s : State) :
    hostAccess (.read r.offset .w32) s = .next (s.record (.read r.offset .w32) (s.readReg r)) := by
  simp [hostAccess, hostRead_register r.offset_lt, State.readRegister]

/-! ## What two states agree on -/

theorem sameSlots_of_slots_eq {s t : State} (h : t.slots = s.slots) : SameSlots s t := fun k =>
  have hk : t.slot k = s.slot k := State.slot_congr h k
  ⟨⟨congrArg Slot.full hk, congrArg Slot.stype hk, congrArg Slot.slen hk⟩, State.ramCell_congr h k⟩

theorem sameMem_of_mem_eq {s t : State} (h : t.mem = s.mem) : SameMem s t := State.readByte_congr h

theorem SameOperands.refl (s : State) : SameOperands s s := ⟨rfl, rfl, rfl, rfl, rfl⟩

@[simp] theorem SameHostSide.refl (s : State) : SameHostSide s s :=
  ⟨rfl, rfl, rfl, .refl s, rfl, rfl, rfl, rfl⟩

@[simp] theorem sameHostSide_setRecord {s u : State} {k : Fin Config.numSlots} {f : Bool} {t n : Word} :
    SameHostSide s (u.setRecord k f t n) ↔ SameHostSide s u := .rfl

@[simp] theorem sameHostSide_writeRam {s u : State} {k : Fin Config.numSlots} {o : Nat} {bs : List Byte} :
    SameHostSide s (u.writeRam k o bs) ↔ SameHostSide s u := .rfl

@[simp] theorem sameHostSide_writeMem {s u : State} {a : Nat} {bs : List Byte} :
    SameHostSide s (u.writeMem a bs) ↔ SameHostSide s u := .rfl

@[simp] theorem sameHostSide_drew {s u : State} {n : Nat} :
    SameHostSide s (u.drew n) ↔ SameHostSide s u := .rfl

@[simp] theorem sameHostSide_setCrcOut {s u : State} {v : Word} :
    SameHostSide s (u.setCrcOut v) ↔ SameHostSide s u := .rfl

@[simp] theorem sameHostSide_setCrcRcvd {s u : State} {v : Word} :
    SameHostSide s (u.setCrcRcvd v) ↔ SameHostSide s u := .rfl

@[simp] theorem sameHostSide_swapSlots {s u : State} {ka kb : Fin Config.numSlots} :
    SameHostSide s (u.swapSlots ka kb) ↔ SameHostSide s u := by
  rw [State.swapSlots_eq]
  rfl

@[simp] theorem sameHostSide_zeroData {s u : State} {k : Fin Config.numSlots} :
    SameHostSide s (zeroData u k) ↔ SameHostSide s u := by
  obtain ⟨-, h⟩ | ⟨-, h⟩ := zeroData_cases u k
  · rw [h]
  · rw [h, sameHostSide_writeRam]

/-! ## Completion -/

/-- A completion after updates that leave the host's side alone. -/
theorem SameHostSide.completed {s u : State} (h : SameHostSide s u) (l : Latch) (e : ErrorKind) (r : Word) :
    Completed s (u.complete l e r) l e r :=
  ⟨rfl, rfl, rfl, rfl, rfl, rfl, h⟩

theorem completed_complete (s : State) (l : Latch) (e : ErrorKind) (r : Word) :
    Completed s (s.complete l e r) l e r := (SameHostSide.refl s).completed l e r

theorem onlyCompleted_complete (s : State) (l : Latch) (e : ErrorKind) (r : Word) :
    OnlyCompleted s (s.complete l e r) l e r :=
  ⟨completed_complete s l e r, sameSlots_of_slots_eq rfl, sameMem_of_mem_eq rfl, rfl, rfl⟩

/-- The rule of a slot command completes if it does on every slot the configuration has. -/
theorem onSlot_completed {s : State} {l : Latch} {rule : Fin Config.numSlots → State}
    (h : ∀ k, ∃ e r, Completed s (rule k) l e r) (n : Nat) :
    ∃ e r, Completed s (onSlot s l n rule) l e r := by
  obtain ⟨k, -, hk⟩ | ⟨-, hk⟩ := onSlot_cases s l n rule
  · exact hk ▸ h k
  · exact hk ▸ ⟨_, _, completed_complete s l _ _⟩

theorem crcRule_completed (s : State) (l : Latch) : ∃ e r, Completed s (crcRule s l) l e r := by
  obtain ⟨e, -, h⟩ | ⟨-, -, h⟩ := crcRule_cases s l
  · exact h ▸ ⟨_, _, completed_complete s l _ _⟩
  · rw [h]
    exact ⟨_, _, SameHostSide.completed (by simp) l _ _⟩

theorem createRule_completed (s : State) (l : Latch) (k : Fin Config.numSlots) :
    ∃ e r, Completed s (createRule s l k) l e r := by
  obtain ⟨e, -, h⟩ | ⟨-, -, -, -, -, -, h⟩ := createRule_cases s l k
  · exact h ▸ ⟨_, _, completed_complete s l _ _⟩
  · rw [h]
    exact ⟨_, _, SameHostSide.completed (by simp) l _ _⟩

theorem adoptRule_completed (s : State) (l : Latch) (k : Fin Config.numSlots) :
    ∃ e r, Completed s (adoptRule s l k) l e r := by
  obtain h | ⟨-, -, -, -, h⟩ := adoptRule_cases s l k
  · exact h ▸ ⟨_, _, completed_complete s l _ _⟩
  · rw [h]
    exact ⟨_, _, SameHostSide.completed (by simp) l _ _⟩

theorem serRule_completed (s : State) (l : Latch) (k : Fin Config.numSlots) :
    ∃ e r, Completed s (serRule s l k) l e r := by
  obtain ⟨e, -, r, h⟩ | ⟨-, -, -, -, h⟩ := serRule_cases s l k
  · exact h ▸ ⟨_, _, completed_complete s l _ _⟩
  · rw [h, serStore]
    exact ⟨_, _, SameHostSide.completed (by simp) l _ _⟩

theorem deserRule_completed (v : Bool) (s : State) (l : Latch) (k : Fin Config.numSlots) :
    ∃ e r, Completed s (deserRule v s l k) l e r := by
  obtain ⟨e, -, r, h⟩ | ⟨-, -, -, -, -, -, -, h⟩ := deserRule_cases v s l k
  · exact h ▸ ⟨_, _, completed_complete s l _ _⟩
  · rw [h]
    obtain ⟨-, hv⟩ | ⟨-, hv⟩ := deserVerify_cases s l k (s.readWord l.srcAddr.toNat)
    · rw [hv]
      exact ⟨_, _, SameHostSide.completed (by simp) l _ _⟩
    · rw [hv]
      exact ⟨_, _, SameHostSide.completed (by simp) l _ _⟩

theorem clearRule_completed (s : State) (l : Latch) (k : Fin Config.numSlots) :
    ∃ e r, Completed s (clearRule s l k) l e r :=
  ⟨_, _, SameHostSide.completed (by simp) l _ _⟩

theorem freeRule_completed (s : State) (l : Latch) (k : Fin Config.numSlots) :
    ∃ e r, Completed s (freeRule s l k) l e r :=
  ⟨_, _, SameHostSide.completed (by simp) l _ _⟩

/-- Every rule ends in one completion, on every path (60_exceptions.md R90, R91). -/
theorem commandEffect_completed (i : Instr) (s : State) (l : Latch) :
    ∃ e r, Completed s (commandEffect i s l) l e r := by
  cases i with
  | nop => exact ⟨_, _, completed_complete s l _ _⟩
  | crc => exact crcRule_completed s l
  | create sa => exact onSlot_completed (createRule_completed s l) sa
  | adopt sa => exact onSlot_completed (adoptRule_completed s l) sa
  | ser sa => exact onSlot_completed (serRule_completed s l) sa
  | deser sa => exact onSlot_completed (deserRule_completed _ s l) sa
  | clear sa => exact onSlot_completed (clearRule_completed s l) sa
  | free sa => exact onSlot_completed (freeRule_completed s l) sa
  | swap sa sb =>
    exact onSlot_completed (fun ka => onSlot_completed
      (fun kb => ⟨_, _, SameHostSide.completed (by simp) l _ _⟩) sb) sa

/-! ## The engine's turn -/

theorem step_of_engineMoves {s : State} {l : Latch} (hl : s.latch = some l) (hm : s.engineMoves) :
    step s = engineStep l s := by
  have hturn : s.program.isEmpty || decide (s.delay = 0) := by simpa [State.engineMoves] using hm
  simp only [step, turn, hl, inFlightTurn, hturn, if_true]

theorem engineStep_of_decode_error {l : Latch} {e : IllegalWord} (h : decode l.cmd = .error e) (s : State) :
    engineStep l s = .next (s.complete l .illegalCommand 0) := by
  simp only [engineStep, h]

/-- The engine's turn, if it does not fault, completes the command in flight, ill-formed words included. -/
theorem engineStep_completed {l : Latch} {s t : State} (hl : s.latch = some l)
    (h : engineStep l s = .next t) : ∃ e r, Completed s t l e r := by
  obtain ⟨-, -, rfl⟩ | ⟨i, -, -, rfl⟩ := (engineStep_eq_next hl).1 h
  · exact ⟨_, _, completed_complete s l _ _⟩
  · exact commandEffect_completed i s l

/-! ## Issue -/

/-- An accepted issue touches the model's own schedule and draws beside what it latches. -/
theorem State.issue_eq_issueAfter (s : State) (w : Word) :
    ∃ sched n d, s.issue w = State.issueAfter { s with schedule := sched, draws := n } w d := by
  obtain ⟨d, rest, -, h⟩ | ⟨-, h⟩ := s.issue_cases w
  · exact ⟨rest, s.draws, d, h⟩
  · exact ⟨s.schedule, s.draws + 1, _, h⟩

theorem State.writeCmd_idle {s : State} (h : s.busy = false) (w : Word) : s.writeCmd w = s.issue w := by
  simp [State.writeCmd, h]

theorem State.writeCmd_busy {s : State} (h : s.busy = true) (w : Word) :
    s.writeCmd w = { s with overrun := true } := by
  simp [State.writeCmd, h]

@[simp] theorem State.issue_done (s : State) (w : Word) : (s.issue w).done = false := by
  obtain ⟨_, _, _, h⟩ := s.issue_eq_issueAfter w
  rw [h, State.issueAfter_done]

/-! ## The interrupt line -/

theorem State.irq_of_done_low {s : State} (h : s.done = false) : s.irq = false := by simp [State.irq, h]

theorem State.irq_of_disabled {s : State} (h : s.irqEn = false) : s.irq = false := by simp [State.irq, h]

/-- A completion leaves the line at `IRQ_EN`, since it raises `DONE`. -/
theorem Completed.irq_eq {s t : State} {l : Latch} {e : ErrorKind} {r : Word} (h : Completed s t l e r) :
    t.irq = s.irqEn := by
  obtain ⟨-, -, -, -, -, hdone, hirqEn, -⟩ := h
  simp [State.irq, hdone, hirqEn]

@[simp] theorem State.softReset_irqEn (s : State) : s.softReset.irqEn = false := by
  obtain ⟨-, h⟩ | ⟨l, -, h⟩ := s.softReset_cases
  · rw [h, State.resetEngine_irqEn]
  · rw [h, State.resetEngine_irqEn]

theorem State.writeCtrl_irqEn {s : State} {v : Word} (h : v.getLsbD 0 = false ∨ v.getLsbD 31 = true) :
    (s.writeCtrl v).irqEn = false := by
  unfold State.writeCtrl
  split
  · exact s.softReset_irqEn
  · next h31 => exact h.resolve_right h31

end Sys2Proof.Machine

namespace Sys2Proof.Proofs.StateFamily

open Sys2Proof Sys2Proof.Machine

/-- Settles O33: by the two branches of the `CMD` write and the engine's turn on an ill-formed word. -/
theorem cmdWriteIssuesOrOverruns : Obligations.CmdWriteIssuesOrOverruns := by
  intro s w
  have hwrite : hostAccess (.write 0x014 .w32 w) s = .next (s.writeCmd w) := hostAccess_write_offset .cmd w s
  refine ⟨fun hidle => ?issued, fun hbusy => ?overrun, hostAccess_read_offset .cmd s,
    fun l e hl hm hd => ?illFormed⟩
  case issued =>
    obtain ⟨sched, n, d, hissue⟩ := s.issue_eq_issueAfter w
    rw [hwrite, State.writeCmd_idle hidle, hissue]
    exact ⟨_, rfl, rfl, rfl, rfl, ⟨rfl, rfl, rfl⟩, ⟨rfl, rfl⟩, sameSlots_of_slots_eq rfl,
      sameMem_of_mem_eq rfl, .refl s, rfl, rfl, rfl, rfl, rfl⟩
  case overrun => rw [hwrite, State.writeCmd_busy hbusy]
  case illFormed =>
    exact ⟨_, (step_of_engineMoves hl hm).trans (engineStep_of_decode_error hd s),
      onlyCompleted_complete s l .illegalCommand 0⟩

/-- Settles O45: a completion raises `DONE`, so the line then equals `IRQ_EN`; each falling edge lowers
`DONE` or `IRQ_EN`. -/
theorem interruptFollowsDone : Obligations.InterruptFollowsDone := by
  refine ⟨rfl, fun s => by simp [State.irq], fun i s t h => ?rule, fun s t l hl hm h => ?engine,
    fun s t v hv h => ?ack, fun s t v hv h => ?ctrl, fun s t w hidle h => ?issued⟩
  case rule =>
    obtain ⟨l, -, rfl⟩ := exec_eq_next.1 h
    obtain ⟨e, r, hc⟩ := commandEffect_completed i s l
    exact hc.irq_eq
  case engine =>
    rw [step_of_engineMoves hl hm] at h
    obtain ⟨e, r, hc⟩ := engineStep_completed hl h
    exact hc.irq_eq
  case ack =>
    obtain rfl : t = s.clearStatus v := eq_writeReg_of_hostAccess .status h
    have hbit : v[1] = true := hv
    exact State.irq_of_done_low (by simp [hbit])
  case ctrl =>
    obtain rfl : t = s.writeCtrl v := eq_writeReg_of_hostAccess .ctrl h
    exact State.irq_of_disabled (State.writeCtrl_irqEn hv)
  case issued =>
    obtain rfl : t = s.writeCmd w := eq_writeReg_of_hostAccess .cmd h
    rw [State.writeCmd_idle hidle]
    exact State.irq_of_done_low (s.issue_done w)

end Sys2Proof.Proofs.StateFamily

/-! SUPPORT. The rules the statements about ill-formed words and missing slots rest on: which words decode,
that no command raises `IllegalCommand`, and what a command does that names a slot the configuration
lacks. -/

namespace Sys2Proof

/-! ## Ill-formed words -/

/-- The four ways a word is ill formed (30_encoding.md R59); `decode_eq_error_iff` ties it to the
decoder. -/
def IllFormedWord (w : Word) : Prop :=
  w.extractLsb' 16 16 ≠ 0
    ∨ 8 < opField w
    ∨ (opField w ≤ 1 ∧ (w.extractLsb' 8 4 ≠ 0 ∨ w.extractLsb' 12 4 ≠ 0))
    ∨ (opField w ≤ 7 ∧ w.extractLsb' 12 4 ≠ 0)

@[simp] theorem rsvField_eq_zero {w : Word} : rsvField w = 0 ↔ w.extractLsb' 16 16 = 0 := by
  simp [rsvField, BitVec.toNat_eq]

@[simp] theorem saField_eq_zero {w : Word} : saField w = 0 ↔ w.extractLsb' 8 4 = 0 := by
  simp [saField, BitVec.toNat_eq]

@[simp] theorem sbField_eq_zero {w : Word} : sbField w = 0 ↔ w.extractLsb' 12 4 = 0 := by
  simp [sbField, BitVec.toNat_eq]

@[simp] theorem noSlots_eq_error_iff {sa sb : Nat} {i : Instr} :
    (∃ e, noSlots sa sb i = .error e) ↔ sa ≠ 0 ∨ sb ≠ 0 := by
  unfold noSlots
  split
  · next h => exact iff_of_true ⟨_, rfl⟩ h
  · next h => exact iff_of_false nofun h

@[simp] theorem oneSlot_eq_error_iff {sa sb : Nat} {make : Nat → Instr} :
    (∃ e, oneSlot sa sb make = .error e) ↔ sb ≠ 0 := by
  unfold oneSlot
  split
  · next h => exact iff_of_true ⟨_, rfl⟩ h
  · next h => exact iff_of_false nofun h

/-- The decoder rejects exactly the ill-formed words: `RSV` first, then each opcode by the slot fields it
leaves unused. -/
theorem decode_eq_error_iff {w : Word} : (∃ e, decode w = .error e) ↔ IllFormedWord w := by
  unfold decode IllFormedWord
  by_cases hrsv : rsvField w = 0
  · rw [if_neg (not_not.2 hrsv), rsvField_eq_zero.1 hrsv]
    split
    case h_1 hop | h_2 hop => simp [hop]
    case h_3 hop | h_4 hop | h_5 hop | h_6 hop | h_7 hop | h_8 hop => simp [hop]
    case h_9 hop => exact iff_of_false nofun (by simp [hop])
    case h_10 =>
      have hop : 8 < opField w := by
        simp only [imp_false] at *
        omega
      exact iff_of_true ⟨_, rfl⟩ (.inr (.inl hop))
  · rw [if_pos hrsv]
    exact iff_of_true ⟨_, rfl⟩ (.inl (mt rsvField_eq_zero.2 hrsv))

theorem decode_ok_of_not_illFormed {w : Word} (h : ¬ IllFormedWord w) : ∃ i, decode w = .ok i := by
  cases hd : decode w with
  | error e => exact absurd (decode_eq_error_iff.1 ⟨e, hd⟩) h
  | ok i => exact ⟨i, rfl⟩

end Sys2Proof

namespace Sys2Proof.Machine

/-! ## No command raises `IllegalCommand` -/

theorem ErrorKind.code_eq_illegalCommand {e : ErrorKind} :
    e.code = ErrorKind.illegalCommand.code ↔ e = .illegalCommand := by
  cases e <;> decide

/-- The last completion did not raise `IllegalCommand` (60_exceptions.md R92). -/
def NotIllegalCommand (t : State) : Prop := t.err ≠ ErrorKind.illegalCommand.code

@[simp] theorem notIllegalCommand_complete {s : State} {l : Latch} {e : ErrorKind} {r : Word} :
    NotIllegalCommand (s.complete l e r) ↔ e ≠ .illegalCommand :=
  not_congr ErrorKind.code_eq_illegalCommand

/-- A completion that raises one of the listed errors, `IllegalCommand` not among them. -/
theorem notIllegalCommand_of_mem {s : State} {l : Latch} {e : ErrorKind} {r : Word} {es : List ErrorKind}
    (he : e ∈ es) (hes : .illegalCommand ∉ es) : NotIllegalCommand (s.complete l e r) :=
  notIllegalCommand_complete.2 fun h => hes (h ▸ he)

theorem onSlot_notIllegalCommand {s : State} {l : Latch} {rule : Fin Config.numSlots → State}
    (h : ∀ k, NotIllegalCommand (rule k)) (n : Nat) : NotIllegalCommand (onSlot s l n rule) := by
  obtain ⟨k, -, hk⟩ | ⟨-, hk⟩ := onSlot_cases s l n rule
  · exact hk ▸ h k
  · simp [hk]

theorem crcRule_notIllegalCommand (s : State) (l : Latch) : NotIllegalCommand (crcRule s l) := by
  obtain ⟨e, he, h⟩ | ⟨-, -, h⟩ := crcRule_cases s l
  · exact h ▸ notIllegalCommand_of_mem he (by decide)
  · simp [h]

theorem createRule_notIllegalCommand (s : State) (l : Latch) (k : Fin Config.numSlots) :
    NotIllegalCommand (createRule s l k) := by
  obtain ⟨e, he, h⟩ | ⟨-, -, -, -, -, -, h⟩ := createRule_cases s l k
  · exact h ▸ notIllegalCommand_of_mem he (by decide)
  · simp [h]

theorem adoptRule_notIllegalCommand (s : State) (l : Latch) (k : Fin Config.numSlots) :
    NotIllegalCommand (adoptRule s l k) := by
  obtain h | ⟨-, -, -, -, h⟩ := adoptRule_cases s l k <;> simp [h]

theorem serRule_notIllegalCommand (s : State) (l : Latch) (k : Fin Config.numSlots) :
    NotIllegalCommand (serRule s l k) := by
  obtain ⟨e, he, r, h⟩ | ⟨-, -, -, -, h⟩ := serRule_cases s l k
  · exact h ▸ notIllegalCommand_of_mem he (by decide)
  · simp [h, serStore]

theorem deserRule_notIllegalCommand (v : Bool) (s : State) (l : Latch) (k : Fin Config.numSlots) :
    NotIllegalCommand (deserRule v s l k) := by
  obtain ⟨e, he, r, h⟩ | ⟨-, -, -, -, -, -, -, h⟩ := deserRule_cases v s l k
  · exact h ▸ notIllegalCommand_of_mem he (by decide)
  · obtain ⟨-, hv⟩ | ⟨-, hv⟩ := deserVerify_cases s l k (s.readWord l.srcAddr.toNat)
    · simp [h, hv]
    · simp [h, hv]

theorem commandEffect_notIllegalCommand (i : Instr) (s : State) (l : Latch) :
    NotIllegalCommand (commandEffect i s l) := by
  cases i with
  | nop => simp [commandEffect]
  | crc => exact crcRule_notIllegalCommand s l
  | create sa => exact onSlot_notIllegalCommand (createRule_notIllegalCommand s l) sa
  | adopt sa => exact onSlot_notIllegalCommand (adoptRule_notIllegalCommand s l) sa
  | ser sa => exact onSlot_notIllegalCommand (serRule_notIllegalCommand s l) sa
  | deser sa => exact onSlot_notIllegalCommand (deserRule_notIllegalCommand _ s l) sa
  | clear sa => exact onSlot_notIllegalCommand (fun k => by simp [clearRule]) sa
  | free sa => exact onSlot_notIllegalCommand (fun k => by simp [freeRule]) sa
  | swap sa sb =>
    exact onSlot_notIllegalCommand (fun ka => onSlot_notIllegalCommand (fun kb => by simp) sb) sa

/-! ## Missing slots -/

/-- The slot range check comes before every other check of a rule, so it alone decides (R61). -/
theorem commandEffect_of_missing_slot {i : Instr} {n : Nat} (hn : n ∈ namedSlots i)
    (h : Config.numSlots ≤ n) (s : State) (l : Latch) :
    commandEffect i s l = s.complete l .illegalArgument 0 := by
  cases i with
  | nop | crc => exact absurd hn List.not_mem_nil
  | create sa | adopt sa | ser sa | deser sa | clear sa | free sa =>
    obtain rfl : n = sa := List.mem_singleton.1 hn
    exact onSlot_none h _
  | swap sa sb =>
    obtain rfl | rfl : n = sa ∨ n = sb := List.mem_pair.1 hn
    · exact onSlot_none h _
    · obtain ⟨ka, -, hka⟩ | ⟨-, hka⟩ := onSlot_cases s l sa fun ka =>
        onSlot s l n fun kb => (s.swapSlots ka kb).complete l .ok 0
      · exact hka.trans (onSlot_none h _)
      · exact hka

end Sys2Proof.Machine

namespace Sys2Proof.Proofs.EncodingFamily

open Sys2Proof Sys2Proof.Machine

/-- Settles O5: the decoder rejects exactly the ill-formed words, and no command's own rule raises
`IllegalCommand`. -/
theorem illFormedWordsCompleteWithIllegalCommand : Obligations.IllFormedWordsCompleteWithIllegalCommand := by
  refine ⟨fun s l hl hm hill => ?illFormed, fun w => decode_ok_of_not_illFormed,
    fun s t l hl hm hwell h => ?wellFormed⟩
  case illFormed =>
    obtain ⟨e, hd⟩ := decode_eq_error_iff.2 hill
    exact ⟨_, (step_of_engineMoves hl hm).trans (engineStep_of_decode_error hd s),
      onlyCompleted_complete s l .illegalCommand 0⟩
  case wellFormed =>
    rw [step_of_engineMoves hl hm] at h
    obtain ⟨e, hd, -⟩ | ⟨i, -, -, rfl⟩ := (engineStep_eq_next hl).1 h
    · exact absurd (decode_eq_error_iff.1 ⟨e, hd⟩) hwell
    · exact commandEffect_notIllegalCommand i s l

/-- Settles O9: by the slot range check, which stands first in every rule that names a slot. -/
theorem missingSlotsRaiseIllegalArgument : Obligations.MissingSlotsRaiseIllegalArgument := by
  rintro i s l hl ⟨n, hn, hmissing⟩
  rw [exec_some hl, commandEffect_of_missing_slot hn hmissing]
  exact ⟨_, rfl, onlyCompleted_complete s l .illegalArgument 0⟩

end Sys2Proof.Proofs.EncodingFamily

/-! SUPPORT. The rules the statements about type codes and `NOP` rest on: a word from its four bytes, a word
from its four fields, and what opcode 0 leaves for the other fields. -/

namespace Sys2Proof.Machine

/-! ## Type codes -/

/-- The bytes of a word built from four bytes (00_scope.md R7): dropping the lower bytes brings each one to
the low end. -/
@[simp] theorem toBE32_be32 (b₀ b₁ b₂ b₃ : Byte) : toBE32 (be32 b₀ b₁ b₂ b₃) = [b₀, b₁, b₂, b₃] := by
  have h₀ : (be32 b₀ b₁ b₂ b₃).extractLsb' 24 8 = b₀ := by
    rw [be32, BitVec.extractLsb'_append_eq_of_le (by decide), BitVec.extractLsb'_append_eq_of_le (by decide)]
    exact BitVec.extractLsb'_append_eq_left
  have h₁ : (be32 b₀ b₁ b₂ b₃).extractLsb' 16 8 = b₁ := by
    rw [be32, BitVec.extractLsb'_append_eq_of_le (by decide), BitVec.extractLsb'_append_eq_of_le (by decide)]
    exact BitVec.extractLsb'_append_eq_right
  have h₂ : (be32 b₀ b₁ b₂ b₃).extractLsb' 8 8 = b₂ := by
    rw [be32, BitVec.extractLsb'_append_eq_of_le (by decide)]
    exact BitVec.extractLsb'_append_eq_right
  have h₃ : (be32 b₀ b₁ b₂ b₃).extractLsb' 0 8 = b₃ := BitVec.extractLsb'_append_eq_right
  rw [toBE32, h₀, h₁, h₂, h₃]

/-- The letters of R67, as ranges. -/
theorem isTypeLetter_iff {b : Byte} :
    isTypeLetter b = true ↔ (0x41 ≤ b.toNat ∧ b.toNat ≤ 0x5A) ∨ (0x61 ≤ b.toNat ∧ b.toNat ≤ 0x7A) := by
  simp [isTypeLetter]

theorem typeIsValid_be32 {b₀ b₁ b₂ b₃ : Byte} :
    typeIsValid (be32 b₀ b₁ b₂ b₃) = true ↔ ∀ b ∈ [b₀, b₁, b₂, b₃], isTypeLetter b = true := by
  rw [typeIsValid, toBE32_be32, List.all_eq_true]

end Sys2Proof.Machine

namespace Sys2Proof

/-! ## The word of `NOP` -/

/-- The four fields make up the word (30_encoding.md R56). -/
theorem toNat_eq_fields (w : Word) :
    w.toNat = opField w + 2 ^ 8 * saField w + 2 ^ 12 * sbField w + 2 ^ 16 * rsvField w := by
  simp only [opField, saField, sbField, rsvField, BitVec.extractLsb'_toNat, Nat.shiftRight_eq_div_pow]
  omega

theorem eq_zero_of_fields {w : Word} (hop : opField w = 0) (hsa : saField w = 0) (hsb : sbField w = 0)
    (hrsv : rsvField w = 0) : w = 0 :=
  BitVec.eq_of_toNat_eq (by rw [toNat_eq_fields, hop, hsa, hsb, hrsv]; rfl)

/-- A word with opcode `0x00` and any other bit set has a bit in `RSV` or in a slot field, where `NOP` has
none. -/
theorem illFormedWord_of_opField_zero {w : Word} (hop : opField w = 0) (hw : w ≠ 0) : IllFormedWord w := by
  by_cases hrsv : w.extractLsb' 16 16 = 0
  · by_cases hslots : w.extractLsb' 8 4 ≠ 0 ∨ w.extractLsb' 12 4 ≠ 0
    · exact .inr (.inr (.inl ⟨by omega, hslots⟩))
    · simp only [not_or, not_not] at hslots
      obtain ⟨hsa, hsb⟩ := hslots
      exact absurd (eq_zero_of_fields hop (saField_eq_zero.2 hsa) (sbField_eq_zero.2 hsb)
        (rsvField_eq_zero.2 hrsv)) hw
  · exact .inl hrsv

end Sys2Proof

namespace Sys2Proof.Proofs.CrcEngineFamily

open Sys2Proof Sys2Proof.Machine

/-- Settles O56: a type code is checked byte by byte, and its bytes are the four it was built from. -/
theorem typeValidityIsPerByte : Obligations.TypeValidityIsPerByte := by
  refine ⟨fun b => isTypeLetter_iff, fun b₀ b₁ b₂ b₃ => ?_⟩
  rw [typeIsValid_be32]
  simp only [isTypeLetter_iff]

/-- Settles O10: the effect of `NOP` is the completion alone; a nonzero word with opcode `0x00` is ill
formed. -/
theorem nopOnlyCompletes : Obligations.NopOnlyCompletes := by
  refine ⟨fun s l hl => ?completes, rfl, fun w hop hw => ?otherWords⟩
  case completes =>
    exact ⟨_, exec_some hl .nop, onlyCompleted_complete s l .ok 0, (completed_complete s l .ok 0).irq_eq⟩
  case otherWords =>
    exact decode_eq_error_iff.2 (illFormedWord_of_opField_zero (by rw [opField, hop]; rfl) hw)

end Sys2Proof.Proofs.CrcEngineFamily

/-! SUPPORT. The rules the statements about `CLEAR`, `FREE`, `SWAP` and the frame rest on: the words of the
slot commands, what each of the three commands leaves, and where the bytes of a frame stand. -/

namespace Sys2Proof

/-! ## The words of the slot commands -/

theorem slotFieldFits_val (k : Fin Config.numSlots) : slotFieldFits k.val = true :=
  decide_eq_true (k.isLt.trans (by decide))

/-- The word of a one-slot command, as 41_chunk_codec.md writes it. -/
theorem oneSlotWord_eq (op sa : Nat) :
    BitVec.ofNat 32 op ||| BitVec.ofNat 32 sa <<< 8 = commandWord op sa 0 := by
  simp [commandWord, BitVec.or_comm]

/-- The word of a two-slot command, as 41_chunk_codec.md writes it. -/
theorem twoSlotWord_eq (op sa sb : Nat) :
    BitVec.ofNat 32 op ||| BitVec.ofNat 32 sa <<< 8 ||| BitVec.ofNat 32 sb <<< 12 = commandWord op sa sb := by
  rw [commandWord, BitVec.or_comm, BitVec.or_comm (BitVec.ofNat 32 op), BitVec.or_assoc]

theorem decode_clearWord (k : Fin Config.numSlots) :
    decode (0x00000006 ||| BitVec.ofNat 32 k.val <<< 8) = .ok (.clear k.val) :=
  (congrArg decode (oneSlotWord_eq 6 k.val)).trans (Laws.RoundTrip.clear k.val (slotFieldFits_val k))

theorem decode_freeWord (k : Fin Config.numSlots) :
    decode (0x00000007 ||| BitVec.ofNat 32 k.val <<< 8) = .ok (.free k.val) :=
  (congrArg decode (oneSlotWord_eq 7 k.val)).trans (Laws.RoundTrip.free k.val (slotFieldFits_val k))

theorem decode_swapWord (ka kb : Fin Config.numSlots) :
    decode (0x00000008 ||| BitVec.ofNat 32 ka.val <<< 8 ||| BitVec.ofNat 32 kb.val <<< 12)
      = .ok (.swap ka.val kb.val) :=
  (congrArg decode (twoSlotWord_eq 8 ka.val kb.val)).trans
    (Laws.RoundTrip.swap ka.val kb.val (by simp [Instr.wf, slotFieldFits_val]))

end Sys2Proof

namespace Sys2Proof.Machine

theorem sameSlot_of_slot_eq {s t : State} {k : Fin Config.numSlots} (h : t.slot k = s.slot k) :
    SameSlot s t k :=
  ⟨⟨congrArg Slot.full h, congrArg Slot.stype h, congrArg Slot.slen h⟩,
    fun o => congrArg (fun x : Slot => x.ram.lookup o) h⟩

/-! ## `CLEAR` -/

theorem exec_clear {s : State} {l : Latch} (h : s.latch = some l) (k : Fin Config.numSlots) :
    exec (.clear k.val) s = .next (clearRule s l k) := by
  rw [exec_some h, commandEffect, onSlot_val]

@[simp] theorem slot_clearRule_self (s : State) (l : Latch) (k : Fin Config.numSlots) :
    (clearRule s l k).slot k = (s.slot k).emptied := by
  simp [clearRule, State.slot_setRecord, Slot.emptied]

theorem slot_clearRule_ne (s : State) (l : Latch) {k j : Fin Config.numSlots} (h : j ≠ k) :
    (clearRule s l k).slot j = s.slot j := by
  simp [clearRule, State.slot_setRecord, h]

@[simp] theorem ramCell_clearRule (s : State) (l : Latch) (k j : Fin Config.numSlots) (o : Nat) :
    (clearRule s l k).ramCell j o = s.ramCell j o := by
  simp [clearRule]

/-- `CLEAR` completes with `OK`, also after updates that leave the host's side alone. -/
theorem SameHostSide.completed_clearRule {s u : State} (h : SameHostSide s u) (l : Latch)
    (k : Fin Config.numSlots) : Completed s (clearRule u l k) l .ok 0 :=
  SameHostSide.completed (sameHostSide_setRecord.2 h) l .ok 0

/-! ## `FREE` -/

/-- `FREE` is `CLEAR` after the data is zeroed (41_chunk_codec.md R85, R86). -/
theorem freeRule_eq_clearRule (s : State) (l : Latch) (k : Fin Config.numSlots) :
    freeRule s l k = clearRule (zeroData s k) l k := rfl

theorem exec_free {s : State} {l : Latch} (h : s.latch = some l) (k : Fin Config.numSlots) :
    exec (.free k.val) s = .next (clearRule (zeroData s k) l k) := by
  rw [exec_some h, commandEffect, onSlot_val, freeRule_eq_clearRule]

theorem zeroData_of_empty {s : State} {k : Fin Config.numSlots} (h : (s.slot k).full = false) :
    zeroData s k = s := by
  simp [zeroData, h]

theorem zeroData_of_full {s : State} {k : Fin Config.numSlots} (h : (s.slot k).full = true) :
    zeroData s k = s.writeRam k 0 (List.replicate (s.slot k).slen.toNat 0) := by
  simp [zeroData, h]

/-- The zeroing of data changes slots alone. -/
theorem zeroData_eq (s : State) (k : Fin Config.numSlots) :
    zeroData s k = { s with slots := (zeroData s k).slots } := by
  obtain ⟨-, hz⟩ | ⟨-, hz⟩ := zeroData_cases s k
  · rw [hz]
  · rw [hz]
    rfl

@[simp] theorem zeroData_mem (s : State) (k : Fin Config.numSlots) : (zeroData s k).mem = s.mem := by
  rw [zeroData_eq]
@[simp] theorem zeroData_crcOut (s : State) (k : Fin Config.numSlots) :
    (zeroData s k).crcOut = s.crcOut := by
  rw [zeroData_eq]
@[simp] theorem zeroData_crcRcvd (s : State) (k : Fin Config.numSlots) :
    (zeroData s k).crcRcvd = s.crcRcvd := by
  rw [zeroData_eq]

theorem slot_zeroData_ne (s : State) {k j : Fin Config.numSlots} (h : j ≠ k) :
    (zeroData s k).slot j = s.slot j := by
  obtain ⟨-, hz⟩ | ⟨-, hz⟩ := zeroData_cases s k
  · rw [hz]
  · rw [hz, State.slot_writeRam, if_neg h]

theorem ramCell_zeroData_data {s : State} {k : Fin Config.numSlots} (hfull : (s.slot k).full = true)
    {o : Nat} (ho : o < (s.slot k).slen.toNat) : (zeroData s k).ramCell k o = some 0 := by
  simp [zeroData_of_full hfull, State.ramCell_writeRam, ho]

theorem ramCell_zeroData_past {s : State} {k : Fin Config.numSlots} (hfull : (s.slot k).full = true)
    {o : Nat} (ho : (s.slot k).slen.toNat ≤ o) : (zeroData s k).ramCell k o = s.ramCell k o := by
  simp [zeroData_of_full hfull, State.ramCell_writeRam, ho]

/-! ## `SWAP` -/

theorem exec_swap {s : State} {l : Latch} (h : s.latch = some l) (ka kb : Fin Config.numSlots) :
    exec (.swap ka.val kb.val) s = .next ((s.swapSlots ka kb).complete l .ok 0) := by
  rw [exec_some h, commandEffect, onSlot_val, onSlot_val]

@[simp] theorem State.slot_swapSlots_left (s : State) (ka kb : Fin Config.numSlots) :
    (s.swapSlots ka kb).slot ka = s.slot kb := by
  rw [State.slot_swapSlots, if_pos rfl]

@[simp] theorem State.slot_swapSlots_right (s : State) (ka kb : Fin Config.numSlots) :
    (s.swapSlots ka kb).slot kb = s.slot ka := by
  rw [State.slot_swapSlots]
  split
  · next h => rw [h]
  · rw [if_pos rfl]

theorem State.slot_swapSlots_ne (s : State) {ka kb j : Fin Config.numSlots} (ha : j ≠ ka) (hb : j ≠ kb) :
    (s.swapSlots ka kb).slot j = s.slot j := by
  rw [State.slot_swapSlots, if_neg ha, if_neg hb]

@[simp] theorem State.swapSlots_mem (s : State) (ka kb : Fin Config.numSlots) :
    (s.swapSlots ka kb).mem = s.mem := by
  rw [State.swapSlots_eq]
@[simp] theorem State.swapSlots_crcOut (s : State) (ka kb : Fin Config.numSlots) :
    (s.swapSlots ka kb).crcOut = s.crcOut := by
  rw [State.swapSlots_eq]
@[simp] theorem State.swapSlots_crcRcvd (s : State) (ka kb : Fin Config.numSlots) :
    (s.swapSlots ka kb).crcRcvd = s.crcRcvd := by
  rw [State.swapSlots_eq]

/-! ## The frame -/

/-- The word built from a word's bytes is the word (00_scope.md R7): adjacent fields join, two at a time. -/
theorem be32_of_toBE32 (v : Word) :
    be32 (v.extractLsb' 24 8) (v.extractLsb' 16 8) (v.extractLsb' 8 8) (v.extractLsb' 0 8) = v := by
  rw [be32, BitVec.extractLsb'_append_extractLsb'_eq_extractLsb' (by rfl),
    BitVec.extractLsb'_append_extractLsb'_eq_extractLsb' (by rfl),
    BitVec.extractLsb'_append_extractLsb'_eq_extractLsb' (by rfl)]
  exact BitVec.extractLsb'_eq_self

/-- A word laid out after the bytes `p` reads back from the four places that follow them. -/
theorem be32_getD_append (p q : List Byte) (v : Word) {f : List Byte} {i : Nat}
    (hf : f = p ++ (toBE32 v ++ q)) (hi : i = p.length) :
    be32 (f.getD i 0) (f.getD (i + 1) 0) (f.getD (i + 2) 0) (f.getD (i + 3) 0) = v := by
  subst hf hi
  have hget : ∀ j, (p ++ (toBE32 v ++ q)).getD (p.length + j) 0 = (toBE32 v ++ q).getD j 0 := fun j => by
    rw [List.getD_append_right _ _ _ _ (Nat.le_add_right _ _), Nat.add_sub_cancel_left]
  have hfirst := hget 0
  rw [Nat.add_zero] at hfirst
  rw [hfirst, hget 1, hget 2, hget 3]
  exact be32_of_toBE32 v

/-- The data of a frame begins past its two words of header. -/
theorem getElem?_frame_data (len tc : Word) (d : List Byte) {i : Nat} (h : i < d.length) :
    (frame len tc d)[8 + i]? = d[i]? := by
  have hheader : (toBE32 len ++ toBE32 tc).length = 8 := rfl
  rw [frame, List.append_assoc, List.getElem?_append_right (by omega), hheader, Nat.add_sub_cancel_left,
    List.getElem?_append_left h]

end Sys2Proof.Machine

namespace Sys2Proof.Proofs.ChunkCodecFamily

open Sys2Proof Sys2Proof.Machine

/-- Settles O24: `FREE` is `CLEAR` of the slot with its data zeroed, and the zeroing writes the first
`SLEN` cells of a FULL slot alone. -/
theorem freeZeroesThenClears : Obligations.FreeZeroesThenClears := by
  intro s l k hl
  refine ⟨decode_freeWord k, _, exec_free hl k, ?completed, ?full, ?stype, ?slen, ?data, ?past, ?empty,
    fun j hj => ?others, sameMem_of_mem_eq (zeroData_mem s k), zeroData_crcOut s k, zeroData_crcRcvd s k⟩
  case completed => exact SameHostSide.completed_clearRule (by simp) l k
  case full | stype | slen => rw [slot_clearRule_self]; rfl
  case data =>
    intro hfull o ho
    rw [ramCell_clearRule, ramCell_zeroData_data hfull ho]
  case past =>
    intro hfull o ho
    rw [ramCell_clearRule, ramCell_zeroData_past hfull ho]
  case empty =>
    intro hempty o
    rw [ramCell_clearRule, zeroData_of_empty hempty]
  case others => exact sameSlot_of_slot_eq ((slot_clearRule_ne _ l hj).trans (slot_zeroData_ne s hj))

/-- Settles O25: the exchange reads both slots before it writes either; a missing slot in either place stops
the rule at its range check. -/
theorem swapExchangesWholeSlots : Obligations.SwapExchangesWholeSlots := by
  refine ⟨fun s l ka kb hl => ?exchange, fun s l a b hl hmissing => ?missing⟩
  case exchange =>
    exact ⟨decode_swapWord ka kb, _, exec_swap hl ka kb, SameHostSide.completed (by simp) l .ok 0,
      s.slot_swapSlots_left ka kb, s.slot_swapSlots_right ka kb,
      fun j ha hb => sameSlot_of_slot_eq (s.slot_swapSlots_ne ha hb),
      sameMem_of_mem_eq (s.swapSlots_mem ka kb), s.swapSlots_crcOut ka kb, s.swapSlots_crcRcvd ka kb⟩
  case missing =>
    have heffect : commandEffect (.swap a b) s l = s.complete l .illegalArgument 0 := by
      obtain ha | hb := hmissing
      · exact commandEffect_of_missing_slot (n := a) (by simp [namedSlots]) ha s l
      · exact commandEffect_of_missing_slot (n := b) (by simp [namedSlots]) hb s l
    exact ⟨_, exec_some hl _, heffect ▸ onlyCompleted_complete s l .illegalArgument 0⟩

/-- Settles O58: each field of the frame stands right after the fields before it. -/
theorem frameLayout : Obligations.FrameLayout := by
  intro tc d f word
  have hlength : word 0 = BitVec.ofNat 32 d.length :=
    be32_getD_append [] (toBE32 tc ++ d ++ toBE32 (chunkCrc tc d)) _ (by simp [f, frame]) rfl
  have htype : word 4 = tc :=
    be32_getD_append (toBE32 (BitVec.ofNat 32 d.length)) (d ++ toBE32 (chunkCrc tc d)) _
      (by simp [f, frame]) rfl
  have hcrc : word (8 + d.length) = chunkCrc tc d :=
    be32_getD_append (toBE32 (BitVec.ofNat 32 d.length) ++ toBE32 tc ++ d) [] _ (by simp [f, frame])
      (by simp [← Nat.add_assoc])
  exact ⟨length_frame _ _ _, hlength, htype, fun i => getElem?_frame_data _ _ _, hcrc⟩

/-- Settles O23: the rule writes the record alone, which becomes the EMPTY one. -/
theorem clearEmptiesTheRecordOnly : Obligations.ClearEmptiesTheRecordOnly := by
  intro s l k hl
  refine ⟨decode_clearWord k, _, exec_clear hl k, SameHostSide.completed_clearRule (.refl s) l k,
    ?full, ?stype, ?slen, ramCell_clearRule s l k k,
    fun j hj => sameSlot_of_slot_eq (slot_clearRule_ne s l hj), sameMem_of_mem_eq rfl, rfl, rfl⟩
  case full | stype | slen => rw [slot_clearRule_self]; rfl

end Sys2Proof.Proofs.ChunkCodecFamily

/-! SUPPORT. What a reset leaves for the accesses that follow it: the slots, the bytes of `M`, the `PARAMS`
word, and what an accepted issue latches. -/

namespace Sys2Proof.Machine

/-- Every slot is in its power-on condition (70_reset_and_hazards.md R102). -/
@[simp] theorem State.slot_reset (k : Fin Config.numSlots) : State.reset.slot k = Slot.reset := by
  simp only [State.slot, State.reset, Fin.getElem_fin, Vector.getElem_replicate]

@[simp] theorem State.ramCell_reset (k : Fin Config.numSlots) (o : Nat) : State.reset.ramCell k o = none := by
  rw [State.ramCell, State.slot_reset, Slot.reset, Memory.lookup_nil]

@[simp] theorem State.readByte_reset (a : Nat) : State.reset.readByte a = Config.platformByte a := by
  rw [State.readByte, State.reset, Memory.lookup_nil, Option.getD_none]

/-- The fields of `PARAMS` (10_state.md R19) put together: bit 8 alone depends on the parameter. -/
theorem paramsWord_eq_ite (validates : Bool) :
    paramsWord validates = if validates = true then 0x00400104 else 0x00400004 := by
  revert validates
  decide

/-- An accepted issue latches the word with the operand registers (10_state.md R22, R33). -/
@[simp] theorem State.issue_latch (s : State) (w : Word) : (s.issue w).latch = some (s.latched w) := by
  obtain ⟨_, _, _, h⟩ := s.issue_eq_issueAfter w
  rw [h, State.issueAfter_latch]
  rfl

end Sys2Proof.Machine

namespace Sys2Proof.Proofs.ResetFamily

open Sys2Proof Sys2Proof.Machine

/-- Settles O46: the registers hold the constants of the reset state, no byte of `M` or of a RAM is listed
there, and the first `CMD` write finds the engine idle, so it issues. -/
theorem resetState : Obligations.ResetState := by
  refine ⟨rfl, rfl, rfl, rfl, rfl, rfl, rfl, rfl, rfl, rfl, rfl, rfl, rfl, rfl, rfl, rfl, rfl,
    fun k => ?slots, State.ramCell_reset, State.readByte_reset, rfl, rfl, paramsWord_eq_ite _,
    fun w => ?firstIssue⟩
  case slots =>
    rw [State.slot_reset]
    exact ⟨rfl, rfl, rfl⟩
  case firstIssue =>
    have hidle : State.reset.busy = false := rfl
    refine ⟨State.reset.issue w, ?_, State.issue_latch _ w⟩
    exact (hostAccess_write_offset .cmd w _).trans (congrArg _ (State.writeCmd_idle hidle w))

end Sys2Proof.Proofs.ResetFamily

/-! SUPPORT. The rules the statements about the encoding rest on: the word of a command from its fields, the
words each row of the opcode map selects, and that a word decodes exactly to the command whose word it is. -/

namespace Sys2Proof

/-! ## A word and its fields -/

theorem opField_lt (w : Word) : opField w < 2 ^ 8 := (w.extractLsb' 0 8).isLt

theorem rsvField_lt (w : Word) : rsvField w < 2 ^ 16 := (w.extractLsb' 16 16).isLt

theorem saField_lt (w : Word) : saField w < 16 := (w.extractLsb' 8 4).isLt

theorem sbField_lt (w : Word) : sbField w < 16 := (w.extractLsb' 12 4).isLt

/-- The encoder lays the fields out side by side (30_encoding.md R64). -/
theorem toNat_commandWord {op sa sb : Nat} (hop : op < 2 ^ 8) (hsa : sa < 16) (hsb : sb < 16) :
    (commandWord op sa sb).toNat = op + 2 ^ 8 * sa + 2 ^ 12 * sb := by
  have hsa' : (BitVec.ofNat 32 sa <<< 8).toNat = sa <<< 8 := by
    simp [Nat.shiftLeft_eq]; omega
  have hsb' : (BitVec.ofNat 32 sb <<< 12).toNat = sb <<< 12 := by
    simp [Nat.shiftLeft_eq]; omega
  have hlow : sa <<< 8 ||| op = sa <<< 8 + op := (Nat.shiftLeft_add_eq_or_of_lt hop sa).symm
  have hlow_lt : sa <<< 8 + op < 2 ^ 12 := by simp [Nat.shiftLeft_eq]; omega
  have hhigh : sb <<< 12 ||| (sa <<< 8 + op) = sb <<< 12 + (sa <<< 8 + op) :=
    (Nat.shiftLeft_add_eq_or_of_lt hlow_lt sb).symm
  rw [commandWord, BitVec.or_assoc, BitVec.toNat_or, BitVec.toNat_or, hsa', hsb', BitVec.toNat_ofNat,
    Nat.mod_eq_of_lt (by omega), hlow, hhigh]
  simp only [Nat.shiftLeft_eq]
  omega

/-- A word with `RSV = 0` is the command word of its other three fields. -/
theorem commandWord_fields {w : Word} (hrsv : rsvField w = 0) :
    commandWord (opField w) (saField w) (sbField w) = w :=
  BitVec.eq_of_toNat_eq (by
    rw [toNat_commandWord (opField_lt w) (saField_lt w) (sbField_lt w), toNat_eq_fields w, hrsv]
    rfl)

/-! ## What decodes -/

@[simp] theorem noSlots_eq_ok {sa sb : Nat} {i j : Instr} :
    noSlots sa sb i = .ok j ↔ sa = 0 ∧ sb = 0 ∧ i = j := by
  unfold noSlots
  split
  · next h => exact iff_of_false nofun (by tauto)
  · next h => simp_all

@[simp] theorem oneSlot_eq_ok {sa sb : Nat} {make : Nat → Instr} {j : Instr} :
    oneSlot sa sb make = .ok j ↔ sb = 0 ∧ make sa = j := by
  unfold oneSlot
  split
  · next h => exact iff_of_false nofun (by tauto)
  · next h => simp_all

/-- The decoder reads the operands from the fields, and each opcode leaves its unused slot fields 0. -/
theorem encode_of_decode {w : Word} {i : Instr} (h : decode w = .ok i) :
    rsvField w = 0 ∧ i.wf = true ∧ encode i = commandWord (opField w) (saField w) (sbField w) := by
  have hsa : slotFieldFits (saField w) = true := decide_eq_true (saField_lt w)
  have hsb : slotFieldFits (sbField w) = true := decide_eq_true (sbField_lt w)
  unfold decode at h
  by_cases hrsv : rsvField w = 0
  · rw [if_neg (not_not.2 hrsv)] at h
    refine ⟨hrsv, ?_⟩
    split at h
    case h_1 hop | h_2 hop =>
      obtain ⟨hsa0, hsb0, rfl⟩ := noSlots_eq_ok.1 h
      exact ⟨rfl, by rw [hop, hsa0, hsb0, encode]⟩
    case h_3 hop | h_4 hop | h_5 hop | h_6 hop | h_7 hop | h_8 hop =>
      obtain ⟨hsb0, rfl⟩ := oneSlot_eq_ok.1 h
      exact ⟨hsa, by rw [hop, hsb0, encode]⟩
    case h_9 hop =>
      obtain rfl := Except.ok.inj h
      exact ⟨by rw [Instr.wf, hsa, hsb]; rfl, by rw [hop, encode]⟩
    case h_10 => exact nomatch h
  · rw [if_pos hrsv] at h
    exact nomatch h

/-- A well-formed command's word decodes to it. -/
theorem decode_encode {i : Instr} (h : i.wf = true) : decode (encode i) = .ok i := by
  cases i with
  | nop => exact Laws.RoundTrip.nop h
  | crc => exact Laws.RoundTrip.crc h
  | create sa => exact Laws.RoundTrip.create sa h
  | adopt sa => exact Laws.RoundTrip.adopt sa h
  | ser sa => exact Laws.RoundTrip.ser sa h
  | deser sa => exact Laws.RoundTrip.deser sa h
  | clear sa => exact Laws.RoundTrip.clear sa h
  | free sa => exact Laws.RoundTrip.free sa h
  | swap sa sb => exact Laws.RoundTrip.swap sa sb h

/-- A word decodes exactly to the well-formed command whose word it is. -/
theorem decode_eq_ok_iff {w : Word} {i : Instr} : decode w = .ok i ↔ i.wf = true ∧ encode i = w := by
  constructor
  · intro h
    obtain ⟨hrsv, hwf, hencode⟩ := encode_of_decode h
    exact ⟨hwf, hencode.trans (commandWord_fields hrsv)⟩
  · rintro ⟨hwf, rfl⟩
    exact decode_encode hwf

/-! ## The rows of the opcode map -/

/-- Two words are equal exactly if their fields are (30_encoding.md R56). -/
theorem eq_iff_fields {w v : Word} :
    w = v ↔ opField w = opField v ∧ saField w = saField v ∧ sbField w = sbField v
      ∧ rsvField w = rsvField v := by
  constructor
  · rintro rfl
    exact ⟨rfl, rfl, rfl, rfl⟩
  · rintro ⟨hop, hsa, hsb, hrsv⟩
    exact BitVec.eq_of_toNat_eq (by rw [toNat_eq_fields w, toNat_eq_fields v, hop, hsa, hsb, hrsv])

@[simp] theorem opField_and (w v : Word) : opField (w &&& v) = opField w &&& opField v := by
  simp [opField, BitVec.extractLsb'_and]

@[simp] theorem saField_and (w v : Word) : saField (w &&& v) = saField w &&& saField v := by
  simp [saField, BitVec.extractLsb'_and]

@[simp] theorem sbField_and (w v : Word) : sbField (w &&& v) = sbField w &&& sbField v := by
  simp [sbField, BitVec.extractLsb'_and]

@[simp] theorem rsvField_and (w v : Word) : rsvField (w &&& v) = rsvField w &&& rsvField v := by
  simp [rsvField, BitVec.extractLsb'_and]

/-- Every mask of the opcode map keeps `OP` and `RSV` whole, and no pattern has a bit of `RSV`
(30_encoding.md R60). -/
theorem mask_of_mem_opcodeRows {r : OpcodeRow} (hr : r ∈ opcodeRows) :
    opField r.mask = 2 ^ 8 - 1 ∧ rsvField r.mask = 2 ^ 16 - 1 ∧ rsvField r.pattern = 0 := by
  revert r
  decide

theorem eq_of_mnemonic_eq {r r' : OpcodeRow} (hr : r ∈ opcodeRows) (hr' : r' ∈ opcodeRows)
    (h : r.mnemonic = r'.mnemonic) : r = r' := by
  have hrows : ∀ r ∈ opcodeRows, ∀ r' ∈ opcodeRows, r.mnemonic = r'.mnemonic → r = r' := by decide
  exact hrows r hr r' hr' h

/-- A selected word has the row's opcode, no `RSV` bit, and the slot fields as the row's mask has them. -/
theorem fields_of_selects {r : OpcodeRow} (hr : r ∈ opcodeRows) {w : Word} (h : r.selects w = true) :
    opField w = opField r.pattern ∧ saField w &&& saField r.mask = saField r.pattern
      ∧ sbField w &&& sbField r.mask = sbField r.pattern ∧ rsvField w = 0 := by
  obtain ⟨hopMask, hrsvMask, hrsvPattern⟩ := mask_of_mem_opcodeRows hr
  obtain ⟨hop, hsa, hsb, hrsv⟩ := eq_iff_fields.1 (of_decide_eq_true h)
  rw [opField_and, hopMask, Nat.and_two_pow_sub_one_of_lt_two_pow (opField_lt w)] at hop
  rw [rsvField_and, hrsvMask, Nat.and_two_pow_sub_one_of_lt_two_pow (rsvField_lt w), hrsvPattern] at hrsv
  exact ⟨hop, saField_and w _ ▸ hsa, sbField_and w _ ▸ hsb, hrsv⟩

theorem saField_eq_zero_of_and {w : Word} (h : saField w &&& 0xF = 0) : saField w = 0 :=
  (Nat.and_two_pow_sub_one_of_lt_two_pow (n := 4) (saField_lt w)).symm.trans h

theorem sbField_eq_zero_of_and {w : Word} (h : sbField w &&& 0xF = 0) : sbField w = 0 :=
  (Nat.and_two_pow_sub_one_of_lt_two_pow (n := 4) (sbField_lt w)).symm.trans h

/-- A selected word decodes to a command of the row: the checks of R59 are the mask's. -/
theorem decode_of_selects {r : OpcodeRow} (hr : r ∈ opcodeRows) {w : Word} (h : r.selects w = true) :
    ∃ i, decode w = .ok i ∧ i.mnemonic = r.mnemonic := by
  obtain ⟨hop, hsa, hsb, hrsv⟩ := fields_of_selects hr h
  unfold decode
  rw [if_neg (not_not.2 hrsv), hop]
  simp only [opcodeRows, List.mem_cons, List.not_mem_nil, or_false] at hr
  obtain rfl | rfl | rfl | rfl | rfl | rfl | rfl | rfl | rfl := hr
  case inl | inr.inl =>
    exact ⟨_, noSlots_eq_ok.2 ⟨saField_eq_zero_of_and hsa, sbField_eq_zero_of_and hsb, rfl⟩, rfl⟩
  case inr.inr.inr.inr.inr.inr.inr.inr => exact ⟨_, rfl, rfl⟩
  all_goals exact ⟨_, oneSlot_eq_ok.2 ⟨sbField_eq_zero_of_and hsb, rfl⟩, rfl⟩

/-- A row with the command's mnemonic selects the word. -/
abbrev SelectedByRow (i : Instr) (w : Word) : Prop :=
  ∃ r ∈ opcodeRows, r.mnemonic = i.mnemonic ∧ r.selects w = true

/-- A one-slot command's word is selected if its sixteen words are. -/
theorem selectedByRow_of_words (make : Nat → Instr)
    (h : ∀ n : Fin 16, SelectedByRow (make n.val) (encode (make n.val))) {sa : Nat}
    (hsa : slotFieldFits sa = true) : SelectedByRow (make sa) (encode (make sa)) :=
  h ⟨sa, of_decide_eq_true hsa⟩

/-- The row of its mnemonic selects a well-formed command's word. -/
theorem selectedByRow_encode {i : Instr} (h : i.wf = true) : SelectedByRow i (encode i) := by
  cases i with
  | nop | crc => decide
  | create sa => exact selectedByRow_of_words .create (by decide) h
  | adopt sa => exact selectedByRow_of_words .adopt (by decide) h
  | ser sa => exact selectedByRow_of_words .ser (by decide) h
  | deser sa => exact selectedByRow_of_words .deser (by decide) h
  | clear sa => exact selectedByRow_of_words .clear (by decide) h
  | free sa => exact selectedByRow_of_words .free (by decide) h
  | swap sa sb =>
    have hwords : ∀ a b : Fin 16, SelectedByRow (.swap a.val b.val) (encode (.swap a.val b.val)) := by decide
    obtain ⟨hsa, hsb⟩ := Bool.and_eq_true_iff.1 h
    exact hwords ⟨sa, of_decide_eq_true hsa⟩ ⟨sb, of_decide_eq_true hsb⟩

end Sys2Proof

namespace Sys2Proof.Proofs.EncodingFamily

open Sys2Proof Sys2Proof.Machine

/-- Settles O1: by the law of each command's word. -/
theorem wellFormedCommandsRoundTrip : Obligations.WellFormedCommandsRoundTrip := fun _ => decode_encode

/-- Settles O2: the decoder reads the operands from the fields, and the fields make up the word. -/
theorem decodedCommandsEncodeBack : Obligations.DecodedCommandsEncodeBack := fun _ _ => decode_eq_ok_iff.1

/-- Settles O3: a selected word decodes to a command of the row's mnemonic, and mnemonics tell the rows
apart; a word that decodes is a command's word, which its row selects. -/
theorem maskAndMatchSelectTheRow : Obligations.MaskAndMatchSelectTheRow := by
  have hselected : ∀ (w : Word) (i : Instr), decode w = .ok i → SelectedByRow i w := fun w i hd => by
    obtain ⟨hwf, rfl⟩ := decode_eq_ok_iff.1 hd
    exact selectedByRow_encode hwf
  refine ⟨fun w r hr r' hr' h h' => ?unique, hselected, fun w r hr => decode_of_selects hr,
    fun s l hl hm hnone => ?unmatched⟩
  case unique =>
    obtain ⟨i, hi, hname⟩ := decode_of_selects hr h
    obtain ⟨i', hi', hname'⟩ := decode_of_selects hr' h'
    obtain rfl : i = i' := Except.ok.inj (hi.symm.trans hi')
    exact eq_of_mnemonic_eq hr hr' (hname.symm.trans hname')
  case unmatched =>
    cases hd : decode l.cmd with
    | error e =>
      exact ⟨_, (step_of_engineMoves hl hm).trans (engineStep_of_decode_error hd s),
        onlyCompleted_complete s l .illegalCommand 0⟩
    | ok i =>
      obtain ⟨r, hr, -, hselects⟩ := hselected l.cmd i hd
      exact absurd hselects (by simp [hnone r hr])

/-- Settles O4: the decoder run on each word. -/
theorem opcodeMapWordsDecode : Obligations.OpcodeMapWordsDecode :=
  ⟨rfl, rfl, rfl, rfl, rfl, rfl, rfl, rfl, rfl, rfl, rfl, rfl, rfl⟩

end Sys2Proof.Proofs.EncodingFamily

/-! SUPPORT. What every command can come to, said once: the checks of an operand range, what the commands
store, and for each command the states it can leave. -/

namespace Sys2Proof.Machine

/-! ## Operand ranges -/

theorem isNull_eq_false {a n : Nat} : isNull a n = false ↔ n = 0 ∨ a ≠ 0 := by
  simp [isNull]
  omega

theorem wraps_eq_false {a n : Nat} : wraps a n = false ↔ a + n ≤ Config.memBytes := by
  simp [wraps]

theorem isNull_word_eq_false {a n : Word} (h : n = 0 ∨ a ≠ 0) : isNull a.toNat n.toNat = false := by
  rw [isNull_eq_false]
  simpa [BitVec.toNat_eq] using h

theorem isNull_word {a n : Word} : isNull a.toNat n.toNat = true ↔ n ≠ 0 ∧ a = 0 := by
  rw [isNull, Bool.and_eq_true, decide_eq_true_eq, decide_eq_true_eq, Nat.pos_iff_ne_zero, and_comm]
  simp [BitVec.toNat_eq]

theorem wraps_eq_true {a n : Nat} : wraps a n = true ↔ Config.memBytes < a + n := decide_eq_true_iff

/-! ## What the commands store -/

/-- `MAX_CHUNK_LEN` is the looser of the two bounds on a length (00_scope.md R4). -/
theorem slotBytes_le_maxChunkLen : Config.slotBytes ≤ Config.maxChunkLen := by decide

/-- The slot filled from the range (R81). -/
def createFill (s : State) (l : Latch) (k : Fin Config.numSlots) : State :=
  (s.writeRam k 0 (s.readMem l.srcAddr.toNat l.srcLen.toNat)).setRecord k true l.typeCode l.srcLen

theorem ramCell_createFill (s : State) (l : Latch) (k j : Fin Config.numSlots) (o : Nat) :
    (createFill s l k).ramCell j o
      = if j = k ∧ o < l.srcLen.toNat then some (s.readByte (l.srcAddr.toNat + o)) else s.ramCell j o := by
  rw [createFill, State.ramCell_setRecord, State.ramCell_writeRam, State.length_readMem]
  simp only [Nat.zero_le, true_and, Nat.zero_add, Nat.sub_zero]
  split
  · next h => rw [List.getElem?_eq_getElem (by simpa using h.2), State.getElem_readMem]
  · rfl

theorem slot_createFill_ne (s : State) (l : Latch) {k j : Fin Config.numSlots} (h : j ≠ k) :
    (createFill s l k).slot j = s.slot j := by
  rw [createFill, State.slot_setRecord, if_neg h, State.slot_writeRam, if_neg h]

/-- The bytes `SER` reads of slot `k` (41_chunk_codec.md R83). -/
def serData (s : State) (k : Fin Config.numSlots) : List Byte := s.readRam k (s.slot k).slen.toNat

@[simp] theorem length_serData (s : State) (k : Fin Config.numSlots) :
    (serData s k).length = (s.slot k).slen.toNat :=
  s.length_readRam k _

/-- A written cell gives its byte. -/
theorem getElem_serData {s : State} {k : Fin Config.numSlots} {i : Nat} (h : i < (serData s k).length)
    {b : Byte} (hb : s.ramCell k i = some b) : (serData s k)[i] = b := by
  simp [serData, State.readCell, hb]

/-- The frame `SER` writes (R77, R83). -/
def serFrame (s : State) (k : Fin Config.numSlots) : List Byte :=
  frame (s.slot k).slen (s.slot k).stype (serData s k)

@[simp] theorem length_serFrame (s : State) (k : Fin Config.numSlots) :
    (serFrame s k).length = (s.slot k).slen.toNat + 12 := by
  rw [serFrame, length_frame, length_serData]

theorem readByte_serStore (s : State) (l : Latch) (k : Fin Config.numSlots) (x : Nat) :
    (serStore s l k).readByte x = (s.writeMem l.dstAddr.toNat (serFrame s k)).readByte x := rfl

theorem readByte_serStore_outside {s : State} {l : Latch} {k : Fin Config.numSlots} {x : Nat}
    (h : x < l.dstAddr.toNat ∨ l.dstAddr.toNat + (s.slot k).slen.toNat + 12 ≤ x) :
    (serStore s l k).readByte x = s.readByte x := by
  rw [readByte_serStore, State.readByte_writeMem_outside]
  rw [length_serFrame]
  omega

/-- What `DESER` stores before it compares the CRCs (R84). -/
def deserStored (s : State) (k : Fin Config.numSlots) (tc : Word) (d : List Byte) (received : Word) : State :=
  ((s.writeRam k 0 d).setCrcOut (chunkCrc tc d)).setCrcRcvd received

theorem sameRecord_deserStored (s : State) (k j : Fin Config.numSlots) (tc : Word) (d : List Byte)
    (received : Word) : SameRecord s (deserStored s k tc d received) j := by
  simp only [SameRecord, deserStored, State.slot_setCrcRcvd, State.slot_setCrcOut, State.slot_writeRam]
  split <;> simp_all

theorem slot_deserStored_ne (s : State) {k j : Fin Config.numSlots} (tc : Word) (d : List Byte)
    (received : Word) (h : j ≠ k) : (deserStored s k tc d received).slot j = s.slot j := by
  simp only [deserStored, State.slot_setCrcRcvd, State.slot_setCrcOut, State.slot_writeRam, if_neg h]

theorem ramHolds_deserStored (s : State) (k : Fin Config.numSlots) (tc : Word) (d : List Byte)
    (received : Word) : (deserStored s k tc d received).ramHolds k d := fun i hi => by
  simp [deserStored, State.ramCell_writeRam, hi]

theorem ramCell_deserStored_past (s : State) (k : Fin Config.numSlots) (tc : Word) {d : List Byte}
    (received : Word) {o : Nat} (h : d.length ≤ o) :
    (deserStored s k tc d received).ramCell k o = s.ramCell k o := by
  simp [deserStored, State.ramCell_writeRam, h]

/-! ## What a command can come to -/

/-- The states that the command `i` with the latch `l` can leave: an error completion with no other effect, or
the command's own effect, with what its checks have established. -/
inductive CommandLeaves (s : State) (l : Latch) : Instr → State → Prop where
  | error (i : Instr) (e : ErrorKind) (r : Word) : CommandLeaves s l i (s.complete l e r)
  | nop : CommandLeaves s l .nop (s.complete l .ok 0)
  | crc (v : Word) : CommandLeaves s l .crc ((s.setCrcOut v).complete l .ok 0)
  | create {n : Nat} {k : Fin Config.numSlots} (hn : n = k.val) (htype : typeIsValid l.typeCode = true)
      (hfits : l.srcLen.toNat ≤ Config.slotBytes) :
      CommandLeaves s l (.create n) ((createFill s l k).complete l .ok 0)
  | adopt {n : Nat} {k : Fin Config.numSlots} (hn : n = k.val) (htype : typeIsValid l.typeCode = true)
      (hfits : l.srcLen.toNat ≤ Config.slotBytes) :
      CommandLeaves s l (.adopt n) ((s.setRecord k true l.typeCode l.srcLen).complete l .ok 0)
  | ser {n : Nat} {k : Fin Config.numSlots} (hn : n = k.val)
      (hroom : l.dstAddr.toNat + ((s.slot k).slen.toNat + 12) ≤ Config.memBytes) :
      CommandLeaves s l (.ser n) (serStore s l k)
  | mismatch {n : Nat} {k : Fin Config.numSlots} (hn : n = k.val) (tc : Word) (d : List Byte)
      (received : Word) (hd : d.length = (s.readWord l.srcAddr.toNat).toNat)
      (hfits : d.length ≤ Config.slotBytes) :
      CommandLeaves s l (.deser n) ((deserStored s k tc d received).complete l .checksumMismatch 0)
  | deser {n : Nat} {k : Fin Config.numSlots} (hn : n = k.val) (tc : Word) (d : List Byte) (received r : Word)
      (hd : d.length = (s.readWord l.srcAddr.toNat).toNat) (hfits : d.length ≤ Config.slotBytes)
      (htype : Config.deserValidatesType = true → typeIsValid tc = true) :
      CommandLeaves s l (.deser n)
        (((deserStored s k tc d received).setRecord k true tc (s.readWord l.srcAddr.toNat)).complete l .ok r)
  | clear {n : Nat} {k : Fin Config.numSlots} (hn : n = k.val) :
      CommandLeaves s l (.clear n) (clearRule s l k)
  | free {n : Nat} {k : Fin Config.numSlots} (hn : n = k.val) :
      CommandLeaves s l (.free n) (clearRule (zeroData s k) l k)
  | swap {a b : Nat} {ka kb : Fin Config.numSlots} (ha : a = ka.val) (hb : b = kb.val) :
      CommandLeaves s l (.swap a b) ((s.swapSlots ka kb).complete l .ok 0)

theorem CommandLeaves.onSlot {s : State} {l : Latch} {i : Instr} {n : Nat}
    {rule : Fin Config.numSlots → State} (h : ∀ k, n = k.val → CommandLeaves s l i (rule k)) :
    CommandLeaves s l i (onSlot s l n rule) := by
  obtain ⟨k, hn, hk⟩ | ⟨-, hk⟩ := onSlot_cases s l n rule
  · exact hk ▸ h k hn
  · exact hk ▸ .error i _ _

theorem crcRule_leaves (s : State) (l : Latch) : CommandLeaves s l .crc (crcRule s l) := by
  obtain ⟨e, -, h⟩ | ⟨-, -, h⟩ := crcRule_cases s l
  · exact h ▸ .error _ e 0
  · exact h ▸ .crc _

section Leaves

variable {n : Nat} {k : Fin Config.numSlots} (hn : n = k.val) (s : State) (l : Latch)
include hn

theorem createRule_leaves : CommandLeaves s l (.create n) (createRule s l k) := by
  obtain ⟨e, -, h⟩ | ⟨-, -, -, htype, -, hfits, h⟩ := createRule_cases s l k
  · exact h ▸ .error _ e 0
  · exact h ▸ .create hn htype hfits

theorem adoptRule_leaves : CommandLeaves s l (.adopt n) (adoptRule s l k) := by
  obtain h | ⟨-, -, htype, hfits, h⟩ := adoptRule_cases s l k
  · exact h ▸ .error _ _ 0
  · exact h ▸ .adopt hn htype hfits

theorem serRule_leaves : CommandLeaves s l (.ser n) (serRule s l k) := by
  obtain ⟨e, -, r, h⟩ | ⟨-, -, hwraps, hneed, h⟩ := serRule_cases s l k
  · exact h ▸ .error _ e r
  · exact h ▸ .ser hn ((Nat.add_le_add_left hneed _).trans (wraps_eq_false.1 hwraps))

theorem deserRule_leaves :
    CommandLeaves s l (.deser n) (deserRule Config.deserValidatesType s l k) := by
  obtain ⟨e, -, r, h⟩ | ⟨-, -, -, -, -, htype, hfits, h⟩ := deserRule_cases Config.deserValidatesType s l k
  · exact h ▸ .error _ e r
  · have hd := s.length_readMem (l.srcAddr.toNat + 8) (s.readWord l.srcAddr.toNat).toNat
    obtain ⟨-, hv⟩ | ⟨-, hv⟩ := deserVerify_cases s l k (s.readWord l.srcAddr.toNat)
    · exact (h.trans hv) ▸ .mismatch hn _ _ _ hd (hd.le.trans hfits)
    · exact (h.trans hv) ▸ .deser hn _ _ _ _ hd (hd.le.trans hfits) htype

end Leaves

theorem commandEffect_leaves (i : Instr) (s : State) (l : Latch) :
    CommandLeaves s l i (commandEffect i s l) := by
  cases i with
  | nop => exact .nop
  | crc => exact crcRule_leaves s l
  | create sa => exact .onSlot fun _ hn => createRule_leaves hn s l
  | adopt sa => exact .onSlot fun _ hn => adoptRule_leaves hn s l
  | ser sa => exact .onSlot fun _ hn => serRule_leaves hn s l
  | deser sa => exact .onSlot fun _ hn => deserRule_leaves hn s l
  | clear sa => exact .onSlot fun _ hn => .clear hn
  | free sa => exact .onSlot fun _ hn => .free hn
  | swap sa sb => exact .onSlot fun _ ha => .onSlot fun _ hb => .swap ha hb

theorem exec_leaves {i : Instr} {s t : State} (h : exec i s = .next t) :
    ∃ l, s.latch = some l ∧ CommandLeaves s l i t := by
  obtain ⟨l, hl, rfl⟩ := exec_eq_next.1 h
  exact ⟨l, hl, commandEffect_leaves i s l⟩

section Frames

variable {s t : State} {l : Latch} {i : Instr} (h : CommandLeaves s l i t)
include h

/-- Only `SER` writes `M` (20_memory.md R38). -/
theorem CommandLeaves.mem (hi : ∀ n, i ≠ .ser n) : t.mem = s.mem := by
  cases h with
  | ser => exact absurd rfl (hi _)
  | free => exact zeroData_mem s _
  | swap => exact s.swapSlots_mem _ _
  | _ => rfl

/-- A command writes the slots it names alone (30_encoding.md R58). -/
theorem CommandLeaves.slot_unnamed {j : Fin Config.numSlots} (hj : j.val ∉ namedSlots i) :
    t.slot j = s.slot j := by
  have hne : ∀ {n : Nat} {k : Fin Config.numSlots}, n = k.val → n ∈ namedSlots i → j ≠ k := by
    rintro n k rfl hnamed rfl
    exact hj hnamed
  cases h with
  | error | nop | crc | ser => rfl
  | create hn => exact slot_createFill_ne s l (hne hn (List.mem_singleton_self _))
  | adopt hn =>
    rw [State.slot_complete, State.slot_setRecord, if_neg (hne hn (List.mem_singleton_self _))]
  | mismatch hn tc d received =>
    exact slot_deserStored_ne s tc d received (hne hn (List.mem_singleton_self _))
  | deser hn tc d received =>
    have hjk := hne hn (List.mem_singleton_self _)
    rw [State.slot_complete, State.slot_setRecord, if_neg hjk, slot_deserStored_ne s tc d received hjk]
  | clear hn => exact slot_clearRule_ne s l (hne hn (List.mem_singleton_self _))
  | free hn =>
    have hjk := hne hn (List.mem_singleton_self _)
    exact (slot_clearRule_ne _ l hjk).trans (slot_zeroData_ne s hjk)
  | swap ha hb =>
    exact s.slot_swapSlots_ne (hne ha List.mem_cons_self) (hne hb (List.mem_cons_of_mem _ List.mem_cons_self))

/-- `DESER` alone writes `CRC_RCVD` (10_state.md R27). -/
theorem CommandLeaves.crcRcvd (hi : ∀ n, i ≠ .deser n) : t.crcRcvd = s.crcRcvd := by
  cases h with
  | mismatch | deser => exact absurd rfl (hi _)
  | free => exact zeroData_crcRcvd s _
  | swap => exact s.swapSlots_crcRcvd _ _
  | _ => rfl

/-- `CRC`, `SER` and `DESER` alone write `CRC_OUT` (R27). -/
theorem CommandLeaves.crcOut (hcrc : i ≠ .crc) (hser : ∀ n, i ≠ .ser n) (hdeser : ∀ n, i ≠ .deser n) :
    t.crcOut = s.crcOut := by
  cases h with
  | crc => exact absurd rfl hcrc
  | ser => exact absurd rfl (hser _)
  | mismatch | deser => exact absurd rfl (hdeser _)
  | free => exact zeroData_crcOut s _
  | swap => exact s.swapSlots_crcOut _ _
  | _ => rfl

/-- An error other than `ChecksumMismatch` has no effect beside the completion (60_exceptions.md R94). -/
theorem CommandLeaves.eq_complete_of_error (hok : t.err ≠ ErrorKind.ok.code)
    (hmismatch : t.err ≠ ErrorKind.checksumMismatch.code) : ∃ e r, t = s.complete l e r := by
  cases h with
  | error _ e r => exact ⟨e, r, rfl⟩
  | mismatch => exact absurd rfl hmismatch
  | _ => exact absurd rfl hok

end Frames

end Sys2Proof.Machine

/-! SUPPORT. The rules the statements about the invariant and about progress rest on: what one host access can
do, that every update of storage keeps it legal, and that a turn of either agent lowers the count of accesses
before the engine's step. -/

namespace Sys2Proof.Machine

/-! ## What one host access can do -/

/-- Nothing differs but `ACCESS_ERR`, the host's program and readings, and the draws taken. -/
def OnlyObserved (s t : State) : Prop :=
  t = { s with accessErr := t.accessErr, program := t.program, reads := t.reads, draws := t.draws }

/-- What a host access that goes on leaves (20_memory.md R39 to R44). -/
inductive HostEffect (s : State) : State → Prop where
  /-- A read, a poll, or a write that is dropped. -/
  | observed {t : State} (h : OnlyObserved s t) : HostEffect s t
  /-- A well-formed write of a register. -/
  | register (r : Reg) (v : Word) : HostEffect s (s.writeReg v r)
  /-- A byte written to an EMPTY slot's RAM. -/
  | cell (k : Fin Config.numSlots) (o : Nat) (b : Byte) (hempty : (s.slot k).full = false)
      (ho : o < Config.slotBytes) : HostEffect s (s.writeRam k o [b])
  /-- A byte written to `M`. -/
  | byte (a : Nat) (b : Byte) (ha : a < Config.memBytes) : HostEffect s (s.writeMem a [b])

theorem readRegister_onlyObserved (s : State) (off : Nat) (w : Width) :
    OnlyObserved s (s.readRegister off w).1 := by
  unfold State.readRegister
  split <;> rfl

theorem readAperture_onlyObserved (s : State) (k o : Nat) (w : Width) :
    OnlyObserved s (s.readAperture k o w).1 := by
  unfold State.readAperture
  split <;> rfl

theorem OnlyObserved.record {s t : State} (h : OnlyObserved s t) (acc : Access) (v : Word) :
    OnlyObserved s (t.record acc v) := by
  unfold OnlyObserved at h
  rw [h]
  rfl

theorem writeRegister_effect (s : State) (off : Nat) (w : Width) (v : Word) :
    HostEffect s (s.writeRegister off w v) := by
  unfold State.writeRegister
  split
  · cases regAt off with
    | none => exact .observed rfl
    | some r => exact .register r v
  · exact .observed rfl

theorem writeAperture_effect (s : State) (k o : Nat) (w : Width) (v : Word) :
    HostEffect s (s.writeAperture k o w v) := by
  unfold State.writeAperture
  split
  · exact .observed rfl
  · next j hj =>
    obtain ⟨-, ho, -⟩ := apertureCell_eq_some.1 hj
    split
    · exact .observed rfl
    · next hfull => exact .cell j o _ (Bool.eq_false_iff.2 hfull) ho

theorem hostRead_effect {off : Nat} {w : Width} {s t : State} (h : hostRead off w s = .next t) :
    HostEffect s t := by
  unfold hostRead at h
  split at h
  · next o _ =>
    obtain rfl := Host.Outcome.next.inj h
    exact .observed ((readRegister_onlyObserved s o w).record _ _)
  · obtain rfl := Host.Outcome.next.inj h
    exact .observed rfl
  · next k o _ =>
    split at h
    · exact nomatch h
    · obtain rfl := Host.Outcome.next.inj h
      exact .observed ((readAperture_onlyObserved s k o w).record _ _)
  · exact nomatch h

theorem hostWrite_effect {off : Nat} {w : Width} {v : Word} {s t : State}
    (h : hostWrite off w v s = .next t) : HostEffect s t := by
  unfold hostWrite at h
  split at h
  · next o _ =>
    obtain rfl := Host.Outcome.next.inj h
    exact writeRegister_effect s o w v
  · obtain rfl := Host.Outcome.next.inj h
    exact .observed rfl
  · next k o _ =>
    split at h
    · exact nomatch h
    · obtain rfl := Host.Outcome.next.inj h
      exact writeAperture_effect s k o w v
  · exact nomatch h

/-- A host read of `M` that goes on passes its three checks. -/
theorem hostMemRead_eq_next {a : Nat} {s t : State} (h : hostMemRead a s = .next t) :
    t = s.record (.memRead a) ((s.readByte a).setWidth 32) := by
  unfold hostMemRead at h
  split at h
  · exact nomatch h
  split at h
  · exact nomatch h
  split at h
  · exact nomatch h
  · exact (Host.Outcome.next.inj h).symm

/-- A host write of `M` that goes on passes its four checks. -/
theorem hostMemWrite_eq_next {a : Nat} {b : Byte} {s t : State} (h : hostMemWrite a b s = .next t) :
    a < Config.memBytes ∧ t = s.writeMem a [b] := by
  unfold hostMemWrite at h
  split at h
  · exact nomatch h
  next ha =>
  split at h
  · exact nomatch h
  split at h
  · exact nomatch h
  split at h
  · exact nomatch h
  · exact ⟨by omega, (Host.Outcome.next.inj h).symm⟩

theorem hostAccess_effect {acc : Access} {s t : State} (h : hostAccess acc s = .next t) : HostEffect s t := by
  cases acc with
  | read off w => exact hostRead_effect h
  | write off w v => exact hostWrite_effect h
  | memRead a =>
    rw [hostMemRead_eq_next h]
    exact .observed rfl
  | memWrite a b =>
    obtain ⟨ha, rfl⟩ := hostMemWrite_eq_next h
    exact .byte a b ha
  | poll =>
    obtain rfl := Host.Outcome.next.inj h
    split <;> exact .observed rfl

/-- A host access goes on or faults: it is never refused. -/
theorem hostAccess_ne_refused (acc : Access) (s : State) (q : Refusal) : hostAccess acc s ≠ .refused q := by
  cases acc with
  | read off w =>
    rw [hostAccess, hostRead]
    split
    case h_3 => split <;> exact nofun
    all_goals exact nofun
  | write off w v =>
    rw [hostAccess, hostWrite]
    split
    case h_3 => split <;> exact nofun
    all_goals exact nofun
  | memRead a =>
    rw [hostAccess, hostMemRead]
    split_ifs <;> exact nofun
  | memWrite a b =>
    rw [hostAccess, hostMemWrite]
    split_ifs <;> exact nofun
  | poll => exact nofun

/-! ## Updates keep storage legal -/

/-- Every slot is legal and `M` is in canonical form: the storage part of the invariant. -/
def State.StorageLegal (s : State) : Prop := (∀ k, (s.slot k).Legal) ∧ s.mem.wf

theorem State.Inv.storageLegal {s : State} (h : s.Inv) : s.StorageLegal := ⟨h.slots, h.mem⟩

theorem State.StorageLegal.setSlot {s : State} (h : s.StorageLegal) (k : Fin Config.numSlots) {x : Slot}
    (hx : x.Legal) : (s.setSlot k x).StorageLegal := by
  obtain ⟨hslots, hmem⟩ := h
  refine ⟨fun j => ?_, hmem⟩
  rw [State.slot_setSlot]
  split
  · exact hx
  · exact hslots j

theorem State.StorageLegal.writeRam {s : State} (h : s.StorageLegal) (k : Fin Config.numSlots) {o : Nat}
    {bs : List Byte} (hb : o + bs.length ≤ Config.slotBytes) : (s.writeRam k o bs).StorageLegal :=
  h.setSlot k ((h.1 k).withRam (.inr hb))

theorem State.StorageLegal.setEmpty {s : State} (h : s.StorageLegal) (k : Fin Config.numSlots) :
    (s.setRecord k false 0 0).StorageLegal :=
  h.setSlot k (h.1 k).emptied

theorem State.StorageLegal.setFull {s : State} (h : s.StorageLegal) (k : Fin Config.numSlots) (t : Word)
    {n : Word} (hfits : n.toNat ≤ Config.slotBytes) : (s.setRecord k true t n).StorageLegal :=
  h.setSlot k ⟨nofun, fun _ => ⟨hfits.trans slotBytes_le_maxChunkLen, hfits⟩, (h.1 k).ram⟩

theorem State.StorageLegal.writeMem {s : State} (h : s.StorageLegal) {a : Nat} {bs : List Byte}
    (hb : a + bs.length ≤ Config.memBytes) : (s.writeMem a bs).StorageLegal :=
  ⟨h.1, Memory.write_wfBelow _ _ _ _ h.2 (.inr hb)⟩

theorem State.StorageLegal.drawRam {s : State} (h : s.StorageLegal) (sa n : Nat) :
    (s.drawRam sa n).StorageLegal := by
  unfold State.drawRam
  split
  · exact h
  · exact h.writeRam _ (by simp)

theorem State.StorageLegal.drawMem {s : State} (h : s.StorageLegal) (a n : Nat) :
    (s.drawMem a n).StorageLegal :=
  ⟨h.1, s.wf_drawMem a n h.2⟩

theorem State.StorageLegal.abandon {s : State} (h : s.StorageLegal) (l : Latch) :
    (s.abandon l).StorageLegal := by
  unfold State.abandon
  split
  · exact h
  next i _ =>
  cases i with
  | nop | crc | adopt _ | clear _ => exact h
  | create sa | deser sa | free sa => exact h.drawRam sa _
  | ser sa => exact h.drawMem _ _
  | swap sa sb =>
    dsimp only
    split
    · exact h.drawRam sa _
    · exact (h.drawRam sa _).drawRam sb _

theorem State.StorageLegal.zeroData {s : State} (h : s.StorageLegal) (k : Fin Config.numSlots) :
    (zeroData s k).StorageLegal := by
  obtain ⟨-, hz⟩ | ⟨hfull, hz⟩ := zeroData_cases s k
  · rwa [hz]
  · rw [hz]
    exact h.writeRam k (by simpa using ((h.1 k).bounded hfull).2)

theorem State.StorageLegal.swapSlots {s : State} (h : s.StorageLegal) (ka kb : Fin Config.numSlots) :
    (s.swapSlots ka kb).StorageLegal := by
  unfold State.swapSlots
  split
  · exact h
  · exact (h.setSlot ka (h.1 kb)).setSlot kb (h.1 ka)

/-- Each command keeps storage legal by the checks it has passed. -/
theorem CommandLeaves.storageLegal {s t : State} {l : Latch} {i : Instr} (h : CommandLeaves s l i t)
    (hs : s.StorageLegal) : t.StorageLegal := by
  cases h with
  | error | nop | crc => exact hs
  | create _ _ hfits => exact (hs.writeRam _ (by simpa using hfits)).setFull _ _ hfits
  | adopt _ _ hfits => exact hs.setFull _ _ hfits
  | ser _ hroom => exact hs.writeMem (bs := serFrame s _) (by rwa [length_serFrame])
  | mismatch _ _ d _ _ hfits => exact hs.writeRam _ (bs := d) (by omega)
  | deser _ _ d _ _ hd hfits => exact (hs.writeRam _ (bs := d) (by omega)).setFull _ _ (hd ▸ hfits)
  | clear => exact hs.setEmpty _
  | free => exact (hs.zeroData _).setEmpty _
  | swap => exact hs.swapSlots _ _

/-! ## Steps keep the invariant -/

theorem ErrorKind.code_le (e : ErrorKind) : e.code.toNat ≤ 8 := by cases e <;> decide

/-- A completion leaves the engine idle with a code of R92, so storage alone is left to check. -/
theorem Completed.inv {s t : State} {l : Latch} {e : ErrorKind} {r : Word} (h : Completed s t l e r)
    (hstorage : t.StorageLegal) : t.Inv := by
  obtain ⟨herr, -, -, hlatch, hbusy, -, -⟩ := h
  obtain ⟨hslots, hmem⟩ := hstorage
  exact ⟨by rw [hbusy, hlatch]; rfl, by simp [hbusy], herr ▸ e.code_le, hslots, hmem⟩

theorem State.StorageLegal.engineStep_inv {s t : State} (h : s.StorageLegal) {l : Latch}
    (hl : s.latch = some l) (hstep : engineStep l s = .next t) : t.Inv := by
  obtain ⟨e, r, hc⟩ := engineStep_completed hl hstep
  obtain ⟨-, -, rfl⟩ | ⟨i, -, -, rfl⟩ := (engineStep_eq_next hl).1 hstep
  · exact hc.inv h
  · exact hc.inv ((commandEffect_leaves i s l).storageLegal h)

theorem State.StorageLegal.resetEngine_inv {s : State} (h : s.StorageLegal) : s.resetEngine.Inv :=
  ⟨rfl, nofun, by simp, fun k => by simpa using (h.1 k).emptied, h.2⟩

theorem State.StorageLegal.softReset_inv {s : State} (h : s.StorageLegal) : s.softReset.Inv := by
  obtain ⟨-, hr⟩ | ⟨l, -, hr⟩ := s.softReset_cases
  · exact hr ▸ h.resetEngine_inv
  · exact hr ▸ (h.abandon l).resetEngine_inv

theorem State.Inv.writeReg {s : State} (h : s.Inv) (v : Word) (r : Reg) : (s.writeReg v r).Inv := by
  obtain ⟨hbusy, hdone, herr, hslots, hmem⟩ := id h
  cases r with
  | ctrl =>
    unfold State.writeReg State.writeCtrl
    dsimp only
    split
    · exact h.storageLegal.softReset_inv
    · exact ⟨hbusy, hdone, herr, hslots, hmem⟩
  | status => exact ⟨hbusy, fun hb => by simp [State.writeReg, hdone hb], herr, hslots, hmem⟩
  | cmd =>
    unfold State.writeReg State.writeCmd
    dsimp only
    split
    · exact ⟨hbusy, hdone, herr, hslots, hmem⟩
    · obtain ⟨sched, n, d, hissue⟩ := s.issue_eq_issueAfter v
      rw [hissue]
      exact ⟨rfl, fun _ => rfl, herr, hslots, hmem⟩
  | typeReg | srcAddr | srcLen | dstAddr | dstCap => exact ⟨hbusy, hdone, herr, hslots, hmem⟩
  | _ => exact h

theorem HostEffect.inv {s t : State} (h : s.Inv) (he : HostEffect s t) : t.Inv := by
  obtain ⟨hbusy, hdone, herr, hslots, hmem⟩ := id h
  cases he with
  | observed ho =>
    unfold OnlyObserved at ho
    rw [ho]
    exact ⟨hbusy, hdone, herr, hslots, hmem⟩
  | register r v => exact h.writeReg v r
  | cell k o b _ ho =>
    exact ⟨hbusy, hdone, herr, (h.storageLegal.writeRam k (bs := [b]) (by simpa using ho)).1, hmem⟩
  | byte a b ha => exact ⟨hbusy, hdone, herr, hslots, (h.storageLegal.writeMem (bs := [b]) ha).2⟩

theorem State.Inv.setProgram {s : State} (h : s.Inv) (p : List Access) : (s.setProgram p).Inv :=
  ⟨h.busy_iff_latched, h.done_low_in_flight, h.err_code, h.slots, h.mem⟩

theorem State.Inv.countAccess {s : State} (h : s.Inv) : s.countAccess.Inv :=
  ⟨h.busy_iff_latched, h.done_low_in_flight, h.err_code, h.slots, h.mem⟩

theorem State.Inv.step {s t : State} (h : s.Inv) (hstep : step s = .next t) : t.Inv := by
  obtain ⟨-, -, rfl⟩ | ⟨-, acc, rest, -, ha⟩ | ⟨l, hl, -, he⟩ | ⟨l, acc, rest, -, -, -, ha⟩ :=
    step_eq_next.1 hstep
  · exact h
  · exact (hostAccess_effect ha).inv (h.setProgram rest)
  · exact h.storageLegal.engineStep_inv hl he
  · exact (hostAccess_effect ha).inv (h.countAccess.setProgram rest)

/-! ## The types of FULL slots -/

/-- A FULL slot's type is valid, or a FULL slot of `s` had it, or the configuration does not validate the type
of a frame (10_state.md R31 (c)). -/
def TypeKept (s : State) (x : Slot) : Prop :=
  x.full = true → typeIsValid x.stype = true ∨ (∃ j, (s.slot j).full = true ∧ (s.slot j).stype = x.stype)
    ∨ Config.deserValidatesType = false

/-- Every slot of `t` has a type that is valid or was kept from `s`. -/
def TypesKept (s t : State) : Prop := ∀ k, TypeKept s (t.slot k)

theorem TypeKept.of_empty {s : State} {x : Slot} (h : x.full = false) : TypeKept s x := fun hfull =>
  absurd hfull (by simp [h])

theorem TypeKept.of_valid {s : State} {x : Slot} (h : typeIsValid x.stype = true) : TypeKept s x :=
  fun _ => .inl h

/-- A slot with a record of `s`, whatever its RAM holds. -/
theorem TypeKept.of_same {s : State} {x : Slot} (j : Fin Config.numSlots) (hfull : x.full = (s.slot j).full)
    (htype : x.stype = (s.slot j).stype) : TypeKept s x := fun h =>
  .inr (.inl ⟨j, hfull ▸ h, htype.symm⟩)

theorem TypesKept.refl (s : State) : TypesKept s s := fun k => .of_same k rfl rfl

theorem TypesKept.setSlot {s t : State} (h : TypesKept s t) (k : Fin Config.numSlots) {x : Slot}
    (hx : TypeKept s x) : TypesKept s (t.setSlot k x) := fun j => by
  rw [State.slot_setSlot]
  split
  · exact hx
  · exact h j

theorem TypesKept.writeRam {s t : State} (h : TypesKept s t) (k : Fin Config.numSlots) (o : Nat)
    (bs : List Byte) : TypesKept s (t.writeRam k o bs) := h.setSlot k (h k)

theorem zeroData_typesKept (s : State) (k : Fin Config.numSlots) : TypesKept s (zeroData s k) := by
  obtain ⟨-, hz⟩ | ⟨-, hz⟩ := zeroData_cases s k
  · rw [hz]
    exact .refl s
  · rw [hz]
    exact (TypesKept.refl s).writeRam k 0 _

theorem swapSlots_typesKept (s : State) (ka kb : Fin Config.numSlots) : TypesKept s (s.swapSlots ka kb) := by
  intro j
  rw [State.slot_swapSlots]
  split
  · exact TypesKept.refl s kb
  · split
    · exact TypesKept.refl s ka
    · exact TypesKept.refl s j

/-- A command that fills a slot has checked the type, if the configuration asks for it. -/
theorem CommandLeaves.typesKept {s t : State} {l : Latch} {i : Instr} (h : CommandLeaves s l i t) :
    TypesKept s t := by
  cases h with
  | error | nop | crc | ser => exact .refl s
  | create _ htype => exact ((TypesKept.refl s).writeRam _ 0 _).setSlot _ (.of_valid htype)
  | adopt _ htype => exact (TypesKept.refl s).setSlot _ (.of_valid htype)
  | mismatch _ _ d => exact (TypesKept.refl s).writeRam _ 0 d
  | deser _ tc d _ _ _ _ htype =>
    refine ((TypesKept.refl s).writeRam _ 0 d).setSlot _ fun _ => ?_
    cases hparam : Config.deserValidatesType with
    | true => exact .inl (htype hparam)
    | false => exact .inr (.inr rfl)
  | clear => exact (TypesKept.refl s).setSlot _ (.of_empty rfl)
  | free => exact (zeroData_typesKept s _).setSlot _ (.of_empty rfl)
  | swap => exact swapSlots_typesKept s _ _

theorem State.softReset_slot_full (s : State) (k : Fin Config.numSlots) :
    (s.softReset.slot k).full = false := by
  obtain ⟨-, h⟩ | ⟨l, -, h⟩ := s.softReset_cases <;> rw [h, State.slot_resetEngine] <;> rfl

theorem State.issue_slots (s : State) (w : Word) : (s.issue w).slots = s.slots := by
  obtain ⟨_, _, _, h⟩ := s.issue_eq_issueAfter w
  rw [h, State.issueAfter_slots]

/-- A register write leaves the slots, or resets every one. -/
theorem State.writeReg_slots (s : State) (v : Word) (r : Reg) :
    (s.writeReg v r).slots = s.slots ∨ s.writeReg v r = s.softReset := by
  cases r with
  | ctrl =>
    rw [State.writeReg, State.writeCtrl]
    split
    · exact .inr rfl
    · exact .inl rfl
  | cmd =>
    rw [State.writeReg, State.writeCmd]
    split
    · exact .inl rfl
    · exact .inl (s.issue_slots v)
  | _ => exact .inl rfl

theorem HostEffect.typesKept {s t : State} (h : HostEffect s t) : TypesKept s t := by
  cases h with
  | observed ho =>
    unfold OnlyObserved at ho
    exact ho ▸ .refl s
  | register r v =>
    intro k
    obtain hslots | hreset := s.writeReg_slots v r
    · rw [State.slot_congr hslots]
      exact TypesKept.refl s k
    · exact .of_empty (hreset ▸ s.softReset_slot_full k)
  | cell k o b _ _ => exact (TypesKept.refl s).writeRam k o [b]
  | byte a b _ => exact .refl s

theorem step_typesKept {s t : State} (h : step s = .next t) : TypesKept s t := by
  obtain ⟨-, -, rfl⟩ | ⟨-, acc, rest, -, ha⟩ | ⟨l, hl, -, he⟩ | ⟨l, acc, rest, -, -, -, ha⟩ :=
    step_eq_next.1 h
  · exact .refl t
  · exact (hostAccess_effect ha).typesKept
  · obtain ⟨-, -, rfl⟩ | ⟨i, -, -, rfl⟩ := (engineStep_eq_next hl).1 he
    · exact .refl s
    · exact (commandEffect_leaves i s l).typesKept
  · exact (hostAccess_effect ha).typesKept

/-! ## Progress of a command in flight -/

/-- A host access in front of the engine's step ends the command in flight or leaves it, and the count of
accesses before the engine's step, as they are. -/
theorem HostEffect.latch {s t : State} (h : HostEffect s t) (hbusy : s.busy = true) :
    t.latch = none ∨ (t.latch = s.latch ∧ t.delay = s.delay) := by
  cases h with
  | observed ho =>
    unfold OnlyObserved at ho
    rw [ho]
    exact .inr ⟨rfl, rfl⟩
  | register r v =>
    cases r with
    | ctrl =>
      rw [State.writeReg, State.writeCtrl]
      split
      · obtain ⟨-, h⟩ | ⟨l, -, h⟩ := s.softReset_cases <;> exact .inl (h ▸ rfl)
      · exact .inr ⟨rfl, rfl⟩
    | cmd =>
      rw [State.writeReg, State.writeCmd_busy hbusy]
      exact .inr ⟨rfl, rfl⟩
    | _ => exact .inr ⟨rfl, rfl⟩
  | cell k o b _ _ => exact .inr ⟨rfl, rfl⟩
  | byte a b _ => exact .inr ⟨rfl, rfl⟩

theorem engineStep_ne_refused {s : State} {l : Latch} (hl : s.latch = some l) (q : Refusal) :
    engineStep l s ≠ .refused q := by
  unfold engineStep
  split
  · exact nofun
  · split
    · exact nofun
    · rw [exec_some hl]
      exact nofun

/-- No turn is refused: every command of the engine has its meaning. -/
theorem step_ne_refused (s : State) (q : Refusal) : step s ≠ .refused q := by
  have hhost : ∀ u : State, hostTurn u ≠ .refused q := fun u => by
    unfold hostTurn
    split
    · exact nofun
    · exact hostAccess_ne_refused _ _ q
  unfold step turn
  split
  · exact hhost s
  · next l hl =>
    unfold inFlightTurn
    split
    · exact engineStep_ne_refused hl q
    · exact hhost s.countAccess

/-- A run of at most `n` steps ends the command in flight, or faults. -/
def EndsWithin (n : Nat) (s : State) : Prop :=
  ∃ m, m ≤ n ∧ ((∃ t, Sys2Proof.core.run m s = .next t ∧ t.latch = none)
    ∨ ∃ f, Sys2Proof.core.run m s = .fault f)

theorem EndsWithin.of_idle {s : State} (h : s.latch = none) (n : Nat) : EndsWithin n s :=
  ⟨0, Nat.zero_le n, .inl ⟨s, rfl, h⟩⟩

theorem EndsWithin.of_fault {s : State} {f : Fault} (h : step s = .fault f) (n : Nat) :
    EndsWithin (n + 1) s := by
  refine ⟨1, by omega, .inr ⟨f, ?_⟩⟩
  have hcore : Sys2Proof.core.step s = .fault f := h
  simp only [Host.Core.run, hcore]

theorem EndsWithin.of_next {s t : State} {n : Nat} (h : step s = .next t) (ht : EndsWithin n t) :
    EndsWithin (n + 1) s := by
  obtain ⟨m, hm, hend⟩ := ht
  have hcore : Sys2Proof.core.step s = .next t := h
  refine ⟨m + 1, by omega, ?_⟩
  simpa only [Host.Core.run, hcore] using hend

/-- A step with a command in flight ends it, or is a host access that lowers the count by one. -/
theorem step_inFlight {s t : State} (hinv : s.Inv) (hlatch : s.latch.isSome = true) (h : step s = .next t) :
    t.latch = none ∨ (t.latch.isSome = true ∧ s.delay = t.delay + 1) := by
  have hbusy : s.busy = true := hinv.busy_iff_latched.trans hlatch
  obtain ⟨hl, -, -⟩ | ⟨hl, -⟩ | ⟨l, hl, -, he⟩ | ⟨l, acc, rest, hl, -, hdelay, ha⟩ := step_eq_next.1 h
  · simp [hl] at hlatch
  · simp [hl] at hlatch
  · obtain ⟨e, r, -, -, -, hnone, -⟩ := engineStep_completed hl he
    exact .inl hnone
  · obtain hnone | ⟨hsame, hcount⟩ := (hostAccess_effect ha).latch hbusy
    · exact .inl hnone
    · have hlowered : t.delay = s.delay - 1 := hcount
      exact .inr ⟨hsame.symm ▸ hlatch, by omega⟩

/-- By induction on the count of accesses before the engine's step. -/
theorem endsWithin_of_inFlight {d : Nat} {s : State} (hinv : s.Inv) (hlatch : s.latch.isSome = true)
    (hd : s.delay = d) : EndsWithin (d + 1) s := by
  induction d using Nat.strong_induction_on generalizing s with
  | _ d ih =>
    cases hstep : step s with
    | fault f => exact .of_fault hstep d
    | refused q => exact absurd hstep (step_ne_refused s q)
    | next t =>
      obtain hnone | ⟨hflying, hcount⟩ := step_inFlight hinv hlatch hstep
      · exact .of_next hstep (.of_idle hnone d)
      · obtain rfl : d = t.delay + 1 := hd ▸ hcount
        exact .of_next hstep (ih _ (Nat.lt_succ_self _) (hinv.step hstep) hflying rfl)

end Sys2Proof.Machine

namespace Sys2Proof.Proofs.InvariantFamily

open Sys2Proof Sys2Proof.Machine

/-- Settles O48: a completion and a soft reset set the flags afresh, a host access changes one part of the
state, and each of them keeps storage legal. -/
theorem stepKeepsTheInvariant : Obligations.StepKeepsTheInvariant := fun _ _ h hstep => h.step hstep

/-- Settles O49: a command that fills a slot has checked the type, unless it is `DESER` and the parameter says
that it does not check; every other step moves, empties or leaves the records. -/
theorem fullSlotTypesAreValidOrCarried : Obligations.FullSlotTypesAreValidOrCarried :=
  fun _ _ k hstep hfull => step_typesKept hstep k hfull

/-- Settles O50: each step ends the command or lowers the count of accesses before the engine's step. -/
theorem commandInFlightEndsInBoundedSteps : Obligations.CommandInFlightEndsInBoundedSteps :=
  fun _ hinv hlatch => endsWithin_of_inFlight hinv hlatch rfl

/-- Settles O47: the reset state is idle, its slots are EMPTY and its storage lists nothing. -/
theorem resetMeetsTheInvariant : Obligations.ResetMeetsTheInvariant :=
  ⟨rfl, fun _ => rfl, by decide, fun k => State.slot_reset k ▸ Slot.legal_reset, State.reset_mem_wf⟩

end Sys2Proof.Proofs.InvariantFamily

/-! SUPPORT. The rules the statements about steps and about the host's accesses rest on: whose turn it is,
what each access of a register, of an aperture and of `M` comes to, when it is a hazard, and what a soft
reset leaves. -/

namespace Sys2Proof.Machine

/-! ## Whose turn it is -/

theorem engineStep_of_decode_ok {s : State} {l : Latch} {i : Instr} (hd : decode l.cmd = .ok i)
    (hp : platformHazard s i l = none) : engineStep l s = exec i s := by
  simp only [engineStep, hd, hp]

theorem step_of_idle {s : State} (h : s.latch = none) : step s = hostTurn s := by
  simp only [step, turn, h]

theorem hostTurn_of_nil {s : State} (h : s.program = []) : hostTurn s = .next s := by
  simp only [hostTurn, h]

theorem hostTurn_of_cons {s : State} {acc : Access} {rest : List Access} (h : s.program = acc :: rest) :
    hostTurn s = hostAccess acc (s.setProgram rest) := by
  simp only [hostTurn, h]

/-- With a command in flight the host moves while its accesses before the engine's step last (R112). -/
theorem step_of_delay {s : State} {l : Latch} {acc : Access} {rest : List Access} (hl : s.latch = some l)
    (hp : s.program = acc :: rest) (hd : s.delay ≠ 0) : step s = hostTurn s.countAccess := by
  have hturn : (s.program.isEmpty || decide (s.delay = 0)) = false := by simp [hp, hd]
  simp only [step, turn, hl, inFlightTurn, hturn, Bool.false_eq_true, if_false]

/-! ## Register accesses -/

/-- A bit of a register value stands at its position alone. -/
@[simp] theorem getLsbD_bitAt (b : Bool) (i j : Nat) :
    (bitAt b i).getLsbD j = (b && (decide (i < 32) && decide (i = j))) := by
  unfold bitAt
  cases b <;> simp [BitVec.getLsbD_twoPow]

theorem State.getLsbD_statusWord (s : State) (i : Nat) :
    s.statusWord.getLsbD i
      = (s.busy && decide (0 = i) || s.done && decide (1 = i) || s.overrun && decide (2 = i)
        || s.accessErr && decide (3 = i)) := by
  simp only [State.statusWord, BitVec.getLsbD_or, getLsbD_bitAt, Nat.reduceLT, decide_true, Bool.true_and]

theorem State.getLsbD_statusWord_zero (s : State) : s.statusWord.getLsbD 0 = s.busy := by
  rw [State.getLsbD_statusWord]
  simp

theorem bitAt_zero (b : Bool) : bitAt b 0 = if b = true then 1 else 0 := by
  cases b <;> rfl

/-- A field of a slot the configuration has. -/
theorem State.slotField_of_lt (s : State) (k : Fin Config.numSlots) (h : k.val < 16) (field : Slot → Word) :
    s.slotField ⟨k.val, h⟩ field = field (s.slot k) := by
  simp only [State.slotField, slotIndex?_val]

/-- A field of a slot the configuration lacks (10_state.md R30). -/
theorem State.slotField_of_le (s : State) {n : Nat} (h : n < 16) (hn : Config.numSlots ≤ n)
    (field : Slot → Word) : s.slotField ⟨n, h⟩ field = 0 := by
  simp only [State.slotField, slotIndex?_eq_none.2 hn]

theorem registerAccessOk_aligned {off : Nat} (h : off % 4 = 0) : registerAccessOk off .w32 = true := by
  simp [registerAccessOk, h]

theorem hostAccess_read_of_regAt_none {off : Nat} (hlt : off < 0x140) (halign : off % 4 = 0)
    (hnone : regAt off = none) (s : State) :
    hostAccess (.read off .w32) s = .next (s.record (.read off .w32) 0) := by
  simp [hostAccess, hostRead_register hlt, State.readRegister, registerAccessOk_aligned halign, hnone]

theorem hostAccess_write_aligned {off : Nat} (hlt : off < 0x140) (halign : off % 4 = 0) (v : Word)
    (s : State) : hostAccess (.write off .w32 v) s = .next ((regAt off).elim s (s.writeReg v)) := by
  simp [hostAccess, hostWrite_register hlt, State.writeRegister, registerAccessOk_aligned halign]

/-- Each word of the register block is reserved or the word of its own register (10_state.md R16). -/
theorem offset_of_regAt {off : Nat} (hlt : off < 0x140) (halign : off % 4 = 0) {r : Reg}
    (h : regAt off = some r) : r.offset = off := by
  have hwords : ∀ n : Fin 0x50, (regAt (4 * n.val)).all (fun r => r.offset = 4 * n.val) := by decide
  have hoff : 4 * (off / 4) = off := by omega
  have hword := hwords ⟨off / 4, by omega⟩
  rw [hoff, h] at hword
  exact of_decide_eq_true hword

/-- The registers from `RESULT` on are read-only (R16). -/
theorem State.writeReg_of_offset_ge (s : State) (v : Word) {r : Reg} (h : 0x034 ≤ r.offset) :
    s.writeReg v r = s := by
  cases r with
  | result | crcOut | crcRcvd | slotState _ | slotType _ | slotLen _ => rfl
  | _ => exact absurd h (by decide)

theorem hostAccess_read_illFormed {off : Nat} {w : Width} (hlt : off < 0x140) (h : w ≠ .w32 ∨ off % 4 ≠ 0)
    (s : State) : hostAccess (.read off w) s = .next (s.flagAccessErr.record (.read off w) 0) := by
  simp [hostAccess, hostRead_register hlt, State.readRegister, registerAccessOk_eq_false.2 h]

theorem hostAccess_write_illFormed {off : Nat} {w : Width} (hlt : off < 0x140) (h : w ≠ .w32 ∨ off % 4 ≠ 0)
    (v : Word) (s : State) : hostAccess (.write off w v) s = .next s.flagAccessErr := by
  simp [hostAccess, hostWrite_register hlt, State.writeRegister, registerAccessOk_eq_false.2 h]

/-! ## Aperture accesses -/

theorem apertureCell_val {o : Nat} (ho : o < Config.slotBytes) (k : Fin Config.numSlots) :
    apertureCell k.val o .w8 = some k :=
  apertureCell_eq_some.2 ⟨rfl, ho, rfl⟩

theorem apertureCell_eq_none {n o : Nat} {w : Width} (h : w ≠ .w8 ∨ Config.numSlots ≤ n) :
    apertureCell n o w = none := by
  rw [Option.eq_none_iff_forall_ne_some]
  intro j hj
  obtain ⟨hw, -, rfl⟩ := apertureCell_eq_some.1 hj
  exact h.elim (fun hne => hne hw) (fun hge => absurd j.isLt (Nat.not_lt.2 hge))

/-! ## Accesses of `M` -/

/-- A host read of `M` of a byte that no command in flight owns. -/
theorem hostMemRead_of_memory {s : State} {a : Nat} (ha : a < Config.memBytes)
    (hout : s.outputHazard a = false) (hmem : s.hasMemory a = true) :
    hostMemRead a s = .next (s.record (.memRead a) ((s.readByte a).setWidth 32)) := by
  simp [hostMemRead, Nat.not_le.2 ha, hout, hmem]

/-- A host write of `M` of a byte that no command in flight owns. -/
theorem hostMemWrite_of_memory {s : State} {a : Nat} (ha : a < Config.memBytes)
    (hin : s.inputHazard a = false) (hout : s.outputHazard a = false) (hmem : s.hasMemory a = true)
    (b : Byte) : hostMemWrite a b s = .next (s.writeMem a [b]) := by
  simp [hostMemWrite, Nat.not_le.2 ha, hin, hout, hmem]

/-! ## Hazards -/

theorem inFlight_of_decode {s : State} {l : Latch} {i : Instr} (hl : s.latch = some l)
    (hd : decode l.cmd = .ok i) : s.inFlight = some (i, l) := by
  simp only [State.inFlight, hl, hd]

theorem inRange_iff {x a n : Nat} : inRange x a n = true ↔ a ≤ x ∧ x < a + n := by
  simp [inRange]

section InFlight

variable {s : State} {l : Latch} {i : Instr} (hfly : s.inFlight = some (i, l))
include hfly

theorem inputHazard_of_inRange {x a n : Nat} (hr : inputRange i l = some (a, n)) (hx : a ≤ x ∧ x < a + n) :
    s.inputHazard x = true := by
  simp [State.inputHazard, hfly, hr, rangeHas, inRange_iff, hx]

theorem outputHazard_of_inRange {x a n : Nat} (hr : outputRange i l = some (a, n)) (hx : a ≤ x ∧ x < a + n) :
    s.outputHazard x = true := by
  simp [State.outputHazard, hfly, hr, rangeHas, inRange_iff, hx]

/-- A command with an output range has no input range, so a write there is no hazard of R107 (a). -/
theorem inputHazard_of_outputRange {r : Nat × Nat} (hr : outputRange i l = some r) (x : Nat) :
    s.inputHazard x = false := by
  cases i <;> simp_all [outputRange, State.inputHazard, inputRange, rangeHas]

theorem apertureHazard_of_named {n : Nat} (hn : n ∈ namedSlots i) : s.apertureHazard n = true := by
  simp [State.apertureHazard, hfly, hn]

end InFlight

theorem hostMemWrite_of_inputHazard {s : State} {a : Nat} (ha : a < Config.memBytes)
    (h : s.inputHazard a = true) (b : Byte) : hostMemWrite a b s = .fault .hazardInputWrite := by
  simp [hostMemWrite, Nat.not_le.2 ha, h]

theorem hostMemRead_of_outputHazard {s : State} {a : Nat} (ha : a < Config.memBytes)
    (h : s.outputHazard a = true) : hostMemRead a s = .fault .hazardOutputAccess := by
  simp [hostMemRead, Nat.not_le.2 ha, h]

theorem hostMemWrite_of_outputHazard {s : State} {a : Nat} (ha : a < Config.memBytes)
    (hin : s.inputHazard a = false) (h : s.outputHazard a = true) (b : Byte) :
    hostMemWrite a b s = .fault .hazardOutputAccess := by
  simp [hostMemWrite, Nat.not_le.2 ha, hin, h]

theorem hasMemory_eq_false {s : State} {x : Nat} :
    s.hasMemory x = false ↔ ∃ r ∈ s.platform, r.start ≤ x ∧ x < r.start + r.size := by
  simp [State.hasMemory, inRange_iff]

theorem overlap_of_mem {x a n b m : Nat} (ha : a ≤ x ∧ x < a + n) (hb : b ≤ x ∧ x < b + m) :
    overlap a n b m = true := by
  simp [overlap]
  omega

/-- An address of the operand range without memory lies in some region, and the first such region decides the
fault (70_reset_and_hazards.md R108). -/
theorem platformHazard_of_hasMemory_eq_false {s : State} {l : Latch} {i : Instr} {a n x : Nat}
    (hr : inputRange i l = some (a, n) ∨ outputRange i l = some (a, n)) (hx : a ≤ x ∧ x < a + n)
    (hmem : s.hasMemory x = false) :
    platformHazard s i l = some .hazardDeviceMapped ∨ platformHazard s i l = some .hazardUnbacked := by
  have hrange : (inputRange i l).or (outputRange i l) = some (a, n) := by
    obtain hin | hout := hr
    · simp [hin]
    · have hin : inputRange i l = none := by cases i <;> simp_all [outputRange, inputRange]
      simp [hin, hout]
  obtain ⟨r, hmemr, hxr⟩ := hasMemory_eq_false.1 hmem
  obtain ⟨r', hfind⟩ : ∃ r', s.platform.find? (fun r => overlap a n r.start r.size) = some r' :=
    Option.isSome_iff_exists.1 (List.find?_isSome.2 ⟨r, hmemr, overlap_of_mem hx hxr⟩)
  simp only [platformHazard, hrange, hfind]
  cases r'.kind with
  | device => exact .inl rfl
  | unbacked => exact .inr rfl

theorem engineStep_of_platformHazard {s : State} {l : Latch} {i : Instr} {f : Fault}
    (hd : decode l.cmd = .ok i) (hp : platformHazard s i l = some f) : engineStep l s = .fault f := by
  simp only [engineStep, hd, hp]

/-! ## Soft reset -/

theorem State.softReset_of_idle {s : State} (h : s.latch = none) : s.softReset = s.resetEngine := by
  simp only [State.softReset, h]

theorem State.softReset_of_latched {s : State} {l : Latch} (h : s.latch = some l) :
    s.softReset = (s.abandon l).resetEngine := by
  simp only [State.softReset, h]

theorem State.exists_softReset_eq (s : State) : ∃ u : State, s.softReset = u.resetEngine := by
  obtain ⟨-, h⟩ | ⟨l, -, h⟩ := s.softReset_cases
  · exact ⟨_, h⟩
  · exact ⟨_, h⟩

theorem hostAccess_softReset (s : State) {v : Word} (h : v.getLsbD 31 = true) :
    hostAccess (.write 0x00C .w32 v) s = .next s.softReset :=
  (hostAccess_write_offset .ctrl v s).trans (congrArg _ (if_pos h))

@[simp] theorem State.ramCell_drawMem (s : State) (a n : Nat) (k : Fin Config.numSlots) (o : Nat) :
    (s.drawMem a n).ramCell k o = s.ramCell k o := rfl

theorem State.abandon_of_decode_error {s : State} {l : Latch} {e : IllegalWord}
    (h : decode l.cmd = .error e) : s.abandon l = s := by
  simp only [State.abandon, h]

section Abandon

variable {s : State} {l : Latch} {i : Instr} (hd : decode l.cmd = .ok i)
include hd

/-- An abandoned command other than `SER` leaves `M` (R104). -/
theorem State.readByte_abandon (h : ∀ n, i ≠ .ser n) (x : Nat) : (s.abandon l).readByte x = s.readByte x := by
  simp only [State.abandon, hd]
  cases i with
  | ser sa => exact absurd rfl (h sa)
  | nop | crc | adopt _ | clear _ => rfl
  | create _ | deser _ | free _ => exact s.readByte_drawRam _ _ x
  | swap sa sb =>
    dsimp only
    split <;> simp only [State.readByte_drawRam]

/-- An abandoned command leaves the RAM of a slot it does not name (R104). -/
theorem State.ramCell_abandon_unnamed {k : Fin Config.numSlots} (h : k.val ∉ namedSlots i) (o : Nat) :
    (s.abandon l).ramCell k o = s.ramCell k o := by
  simp only [State.abandon, hd]
  cases i with
  | nop | crc | adopt _ | clear _ | ser _ => rfl
  | create sa | deser sa | free sa =>
    exact s.ramCell_drawRam_outside sa _ k o (.inl (List.ne_of_not_mem_cons h))
  | swap sa sb =>
    obtain ⟨hsa, hsb⟩ : k.val ≠ sa ∧ k.val ≠ sb := by simpa [namedSlots] using h
    dsimp only
    split
    · exact s.ramCell_drawRam_outside sa _ k o (.inl hsa)
    · exact (State.ramCell_drawRam_outside _ sb _ k o (.inl hsb)).trans
        (s.ramCell_drawRam_outside sa _ k o (.inl hsa))

end Abandon

end Sys2Proof.Machine

namespace Sys2Proof.Proofs.StepFamily

open Sys2Proof Sys2Proof.Machine

/-- Settles O8: every path of every rule ends in a completion. -/
theorem commandsInFlightComplete : Obligations.CommandsInFlightComplete := fun i s l hl =>
  have ⟨e, r, h⟩ := commandEffect_completed i s l
  ⟨_, e, r, exec_some hl i, h⟩

/-- Settles O6: the engine's turn decodes the latched word and meets no hazard. -/
theorem stepRunsTheDecodedCommand : Obligations.StepRunsTheDecodedCommand := fun _ _ _ hl hm hd hp =>
  (step_of_engineMoves hl hm).trans (engineStep_of_decode_ok hd hp)

/-- Settles O7: by whose turn it is. -/
theorem hostMovesUntilTheDelayRunsOut : Obligations.HostMovesUntilTheDelayRunsOut :=
  ⟨fun _ _ _ hl hp => (step_of_idle hl).trans (hostTurn_of_cons hp),
    fun _ _ _ _ hl hp hd => (step_of_delay hl hp hd).trans (hostTurn_of_cons hp),
    fun _ hl hp => (step_of_idle hl).trans (hostTurn_of_nil hp)⟩

end Sys2Proof.Proofs.StepFamily

namespace Sys2Proof.Proofs.HostFamily

open Sys2Proof Sys2Proof.Machine

/-- Settles O34: each bit of the `STATUS` word stands at its own position. -/
theorem statusReadsAndClearsItsBits : Obligations.StatusReadsAndClearsItsBits := by
  intro s
  refine ⟨⟨s.statusWord, hostAccess_read_offset .status s, ?busy, ?done, ?overrun, ?accessErr,
    fun i hi => ?above⟩, fun v => hostAccess_write_offset .status v s⟩
  case busy | done | overrun | accessErr =>
    rw [State.getLsbD_statusWord]
    simp
  case above =>
    rw [State.getLsbD_statusWord]
    simp
    omega

/-- Settles O35: by the register at each offset, and no register at the reserved words. -/
theorem registerMapReads : Obligations.RegisterMapReads := by
  intro s reads
  have hreads : ∀ (r : Reg) (v : Word), s.readReg r = v → reads r.offset v := fun r v h =>
    h ▸ hostAccess_read_offset r s
  have hreserved : ∀ n : Fin 16, regAt (0x04C + 0x10 * n.val) = none := by decide
  refine ⟨hreads .id _ rfl, hreads .version _ rfl, hreads .params _ (paramsWord_eq_ite _),
    hreads .ctrl _ (bitAt_zero s.irqEn), hreads .cmd _ rfl, hreads .err _ rfl, hreads .lastCmd _ rfl,
    hreads .typeReg _ rfl, hreads .srcAddr _ rfl, hreads .srcLen _ rfl, hreads .dstAddr _ rfl,
    hreads .dstCap _ rfl, hreads .result _ rfl, hreads .crcOut _ rfl, hreads .crcRcvd _ rfl,
    fun k => ?slot, fun n hn hlt => ?lacking, fun n hn => ?reserved⟩
  case slot =>
    have hk : k.val < 16 := k.isLt.trans (by decide)
    have hfull := s.slotField_of_lt k hk fun x => bitAt x.full 0
    exact ⟨hreads (.slotState ⟨k.val, hk⟩) _ (hfull.trans (bitAt_zero _)),
      hreads (.slotType ⟨k.val, hk⟩) _ (s.slotField_of_lt k hk _),
      hreads (.slotLen ⟨k.val, hk⟩) _ (s.slotField_of_lt k hk _)⟩
  case lacking =>
    exact ⟨hreads (.slotState ⟨n, hlt⟩) _ (s.slotField_of_le hlt hn fun x => bitAt x.full 0),
      hreads (.slotType ⟨n, hlt⟩) _ (s.slotField_of_le hlt hn _),
      hreads (.slotLen ⟨n, hlt⟩) _ (s.slotField_of_le hlt hn _)⟩
  case reserved => exact hostAccess_read_of_regAt_none (by omega) (by omega) (hreserved ⟨n, hn⟩) s

/-- Settles O36: an aligned write reaches the register of its offset, and the ones from `RESULT` on ignore
it. -/
theorem registerWritesReachTheirRegister : Obligations.RegisterWritesReachTheirRegister := by
  intro s v writes
  have hwrites : ∀ r : Reg, writes r.offset (s.writeReg v r) := fun r => hostAccess_write_offset r v s
  refine ⟨hwrites .typeReg, hwrites .srcAddr, hwrites .srcLen, hwrites .dstAddr, hwrites .dstCap,
    fun h31 => ?ctrl, hwrites .id, hwrites .version, hwrites .params, hwrites .err, hwrites .lastCmd,
    fun off hge hlt halign => ?readOnly⟩
  case ctrl =>
    have hkeep : s.writeReg v .ctrl = { s with irqEn := v[0] } := if_neg (ne_true_of_eq_false h31)
    exact hkeep ▸ hwrites .ctrl
  case readOnly =>
    refine (hostAccess_write_aligned hlt halign v s).trans ?_
    cases hr : regAt off with
    | none => rfl
    | some r =>
      have hoff := offset_of_regAt hlt halign hr
      exact congrArg _ (s.writeReg_of_offset_ge v (hoff.symm ▸ hge))

/-- Settles O37: such an access is not well formed. -/
theorem illFormedRegisterAccessesAreRefused : Obligations.IllFormedRegisterAccessesAreRefused :=
  fun s _ _ hlt h => ⟨hostAccess_read_illFormed hlt h s, fun v => hostAccess_write_illFormed hlt h v s⟩

/-- Settles O38: by whether the access reaches a cell. -/
theorem apertureReadsReturnCells : Obligations.ApertureReadsReturnCells := by
  intro s n o w hn ho hfree
  have hplace := placeOf_aperture hn ho
  generalize 0x01000000 + n * 0x00400000 + o = off at hplace ⊢
  have hread : hostAccess (.read off w) s
      = .next ((s.readAperture n o w).1.record (.read off w) (s.readAperture n o w).2) := by
    rw [hostAccess, hostRead_aperture hplace, hfree]
    rfl
  rw [hread, State.readAperture]
  refine ⟨fun k hk hw => ?cell, fun hrefused => ?refused⟩
  case cell =>
    subst hk hw
    rw [apertureCell_val ho]
    refine ⟨_, s.readCell k o s.draws, rfl, rfl, fun c hc => ?_, rfl, rfl⟩
    rw [State.readCell, hc, Option.getD_some]
  case refused =>
    rw [apertureCell_eq_none hrefused]
    rfl

/-- Settles O39: by whether the access reaches a cell of an EMPTY slot. -/
theorem apertureWritesFillEmptySlots : Obligations.ApertureWritesFillEmptySlots := by
  intro s n o w v hn ho hfree
  have hplace := placeOf_aperture hn ho
  generalize 0x01000000 + n * 0x00400000 + o = off at hplace ⊢
  have hwrite : hostAccess (.write off w v) s = .next (s.writeAperture n o w v) := by
    rw [hostAccess, hostWrite_aperture hplace, hfree]
    rfl
  rw [hwrite, State.writeAperture]
  refine ⟨fun k hk hw hempty => ?cell, fun hrefused => ?refused⟩
  case cell =>
    subst hk hw
    rw [apertureCell_val ho]
    refine ⟨s.writeRam k o [v.setWidth 8], by simp [hempty], rfl, ?_, fun x hx => ?_, ?_, fun j hj => ?_⟩
    · simp [State.ramCell_writeRam]
    · rw [State.ramCell_writeRam, if_neg (by simp; omega)]
    · simp [SameRecord, State.slot_writeRam]
    · exact sameSlot_of_slot_eq (by rw [State.slot_writeRam, if_neg hj])
  case refused =>
    obtain hw | hlacking | ⟨k, rfl, hfull⟩ := hrefused
    · rw [apertureCell_eq_none (.inl hw)]
      rfl
    · rw [apertureCell_eq_none (.inr hlacking)]
      rfl
    · cases hcell : apertureCell k.val o w with
      | none => rfl
      | some j =>
        obtain ⟨-, -, hj⟩ := apertureCell_eq_some.1 hcell
        obtain rfl : k = j := Fin.ext hj
        simp [hfull, State.flagAccessErr]

/-- Settles O40: with no hazard and with memory at the address, the access has no check left to fail. -/
theorem hostMemoryAccesses : Obligations.HostMemoryAccesses := by
  intro s a ha hmem hout
  refine ⟨hostMemRead_of_memory ha hout hmem, fun hin b => ?_⟩
  refine ⟨_, hostMemWrite_of_memory ha hin hout hmem b, rfl,
    s.readByte_writeMem_inside a [b] 0 Nat.zero_lt_one, fun x hx => s.readByte_writeMem_outside a [b] x ?_⟩
  rw [List.length_singleton]
  omega

/-- Settles O41: the command in flight names the range or the slot, and its hazard is the first check. -/
theorem racingAccessesFault : Obligations.RacingAccessesFault := by
  intro s l i hl hd
  have hfly := inFlight_of_decode hl hd
  refine ⟨fun a b hi ha hge hlt => ?input, fun a b hi ha hge hlt => ?output,
    fun n o w v hn hn16 ho => ?aperture⟩
  case input =>
    have hrange : inputRange i l = some (l.srcAddr.toNat, l.srcLen.toNat) := by
      obtain rfl | ⟨n, rfl⟩ | ⟨n, rfl⟩ := hi <;> rfl
    exact hostMemWrite_of_inputHazard ha (inputHazard_of_inRange hfly hrange ⟨hge, hlt⟩) b
  case output =>
    obtain ⟨n, rfl⟩ := hi
    have hout := outputHazard_of_inRange hfly rfl ⟨hge, hlt⟩
    exact ⟨hostMemRead_of_outputHazard ha hout,
      hostMemWrite_of_outputHazard ha (inputHazard_of_outputRange hfly rfl a) hout b⟩
  case aperture =>
    have hplace := placeOf_aperture hn16 ho
    generalize 0x01000000 + n * 0x00400000 + o = off at hplace ⊢
    have hhazard := apertureHazard_of_named hfly hn
    exact ⟨(hostRead_aperture hplace w s).trans (if_pos hhazard),
      (hostWrite_aperture hplace w v s).trans (if_pos hhazard)⟩

/-- Settles O42: the engine's turn meets the hazard before the command's own checks. -/
theorem unbackedOperandRangesFault : Obligations.UnbackedOperandRangesFault := by
  intro s l i a n x hl hm hd hr hge hlt hmem
  rw [step_of_engineMoves hl hm]
  obtain hp | hp := platformHazard_of_hasMemory_eq_false hr ⟨hge, hlt⟩ hmem
  · exact .inl (engineStep_of_platformHazard hd hp)
  · exact .inr (engineStep_of_platformHazard hd hp)

/-- Settles O59: each pseudo-statement by its accesses, and a poll by bit 0 of the `STATUS` word, which is
`BUSY`. -/
theorem pseudoStatementsExpand : Obligations.PseudoStatementsExpand := by
  refine ⟨fun _ => rfl, rfl, fun _ _ => ⟨rfl, rfl, rfl, rfl, rfl⟩, rfl, rfl, rfl, fun s hidle => ?idle,
    fun s hbusy => ?busy⟩
  case idle =>
    have hbit : s.statusWord[0] = false := (s.getLsbD_statusWord_zero).trans hidle
    exact ⟨_, rfl, by simp [hbit, State.record]⟩
  case busy =>
    have hbit : s.statusWord[0] = true := (s.getLsbD_statusWord_zero).trans hbusy
    exact ⟨_, rfl, by simp [hbit, State.record]⟩

/-- Settles O60: the base is a multiple of its alignment, and the reserved offsets name no register and no
cell. -/
theorem deviceWindow : Obligations.DeviceWindow := by
  refine ⟨Nat.mul_mod_right _ _, fun o => ?inside, fun a ha => ?below, fun s off w hge hlt => ?reserved⟩
  case inside => simp [busOffset]
  case below =>
    rw [busOffset, if_neg (by omega)]
  case reserved =>
    have hplace := placeOf_reserved hge hlt
    exact ⟨by rw [hostAccess, hostRead, hplace], fun v => by rw [hostAccess, hostWrite, hplace]⟩

end Sys2Proof.Proofs.HostFamily

namespace Sys2Proof.Proofs.ResetFamily

open Sys2Proof Sys2Proof.Machine

/-- Settles O43: the soft reset is the reset of the engine, after the draws of a command in flight if there is
one. -/
theorem softResetResetsTheEngine : Obligations.SoftResetResetsTheEngine := by
  intro s v hv
  obtain ⟨u, hu⟩ := s.exists_softReset_eq
  refine ⟨u.resetEngine, hu ▸ hostAccess_softReset s hv, rfl, rfl, rfl, rfl, rfl, rfl, rfl, rfl, rfl, rfl,
    rfl, rfl, rfl, rfl, rfl, rfl, rfl, fun k => ?slots, fun hidle => ?storage⟩
  case slots =>
    rw [State.slot_resetEngine]
    exact ⟨rfl, rfl, rfl⟩
  case storage =>
    rw [← hu, State.softReset_of_idle hidle]
    exact ⟨fun k o => s.ramCell_resetEngine k o, fun a => s.readByte_resetEngine a⟩

/-- Settles O44: an abandoned command draws the locations of R104 alone, and the reset of the engine leaves
storage. -/
theorem abandonedCommandsLeaveOtherStorage : Obligations.AbandonedCommandsLeaveOtherStorage := by
  intro s l v hl hv
  refine ⟨_, s.softReset_of_latched hl ▸ hostAccess_softReset s hv, fun e hd => ?illFormed,
    fun i hd => ?command⟩
  case illFormed =>
    rw [State.abandon_of_decode_error hd]
    exact ⟨fun a => s.readByte_resetEngine a, fun k o => s.ramCell_resetEngine k o⟩
  case command =>
    refine ⟨fun hi x => ?mem, fun n hi x hx => ?output, fun k hk o => ?unnamed, fun k hi o ho => ?input,
      fun k hi o ho => ?data, fun hi k o => ?none⟩
    case mem => rw [State.readByte_resetEngine, State.readByte_abandon hd hi]
    case output =>
      subst hi
      simp only [State.readByte_resetEngine, State.abandon, hd]
      exact s.readByte_drawMem_outside _ _ x (.inr hx)
    case unnamed => rw [State.ramCell_resetEngine, State.ramCell_abandon_unnamed hd hk]
    case input =>
      rw [State.ramCell_resetEngine]
      obtain rfl | rfl := hi <;>
        (simp only [State.abandon, hd]; exact s.ramCell_drawRam_outside _ _ k o (.inr ho))
    case data =>
      subst hi
      simp only [State.ramCell_resetEngine, State.abandon, hd, slotIndex?_val, Option.elim_some]
      exact s.ramCell_drawRam_outside _ _ k o (.inr ho)
    case none =>
      rw [State.ramCell_resetEngine]
      obtain ⟨n, rfl | rfl | rfl⟩ := hi <;> simp only [State.abandon, hd, State.ramCell_drawMem]

end Sys2Proof.Proofs.ResetFamily

/-! SUPPORT. The rules the statements about the CRC rest on: the shift is linear and one-to-one, so the
per-byte step is; and what a range that holds a byte list reads as. -/

namespace Sys2Proof.Machine

/-! ## The per-byte step -/

/-- The shift is linear over exclusive or. -/
theorem crcShift_xor (u v : Word) : crcShift (u ^^^ v) = crcShift u ^^^ crcShift v := by
  have hlow : (u ^^^ v)[0] = (u[0] ^^ v[0]) := by simp
  unfold crcShift
  rw [hlow, BitVec.ushiftRight_xor_distrib]
  cases u[0] <;> cases v[0]
  · rfl
  · rw [if_pos (by rfl), if_neg (by decide), if_pos (by rfl), ← BitVec.xor_assoc, BitVec.xor_comm crcPoly,
      BitVec.xor_assoc]
  · exact (BitVec.xor_assoc _ _ _).symm
  · change u >>> 1 ^^^ v >>> 1 = crcPoly ^^^ u >>> 1 ^^^ (crcPoly ^^^ v >>> 1)
    rw [BitVec.xor_comm crcPoly, BitVec.xor_assoc, ← BitVec.xor_assoc crcPoly, BitVec.xor_self,
      BitVec.zero_xor]

theorem crcShifts_xor (n : Nat) (u v : Word) : crcShifts n (u ^^^ v) = crcShifts n u ^^^ crcShifts n v := by
  induction n generalizing u v with
  | zero => rfl
  | succ n ih => rw [crcShifts, crcShifts, crcShifts, crcShift_xor, ih]

/-- The polynomial enters only where a low bit leaves. -/
theorem crcShifts_of_low_zero (n : Nat) (v : Word) (h : ∀ i, i < n → v.getLsbD i = false) :
    crcShifts n v = v >>> n := by
  induction n generalizing v with
  | zero => simp [crcShifts]
  | succ n ih =>
    have hlow : v[0] = false := h 0 (Nat.succ_pos n)
    have hshift : crcShift v = v >>> 1 := by simp [crcShift, hlow]
    rw [crcShifts, hshift, ih, ← BitVec.shiftRight_add, Nat.add_comm]
    intro i hi
    rw [BitVec.getLsbD_ushiftRight]
    exact h (1 + i) (by omega)

/-- The top bit of a shifted value tells whether the polynomial entered. -/
theorem crcShift_injective : Function.Injective crcShift := by
  intro u v h
  have htop : ∀ w : Word, (crcShift w).getLsbD 31 = w[0] := fun w => by
    unfold crcShift
    cases hw : w[0] <;> simp [crcPoly]
  have hlow : u[0] = v[0] := by rw [← htop, ← htop, h]
  have hrest : u >>> 1 = v >>> 1 := by
    simp only [crcShift, hlow] at h
    split at h
    · exact (BitVec.xor_right_inj _).1 h
    · exact h
  apply BitVec.eq_of_getLsbD_eq
  intro i _
  cases i with
  | zero => exact hlow
  | succ i =>
    have hbit := congrArg (BitVec.getLsbD · i) hrest
    simpa [Nat.add_comm 1] using hbit

theorem crcShifts_injective (n : Nat) : Function.Injective (crcShifts n) := by
  induction n with
  | zero => exact Function.injective_id
  | succ n ih => exact ih.comp crcShift_injective

/-- A word without its low byte. -/
def highBits (x : Word) : Word := x ^^^ (x.extractLsb' 0 8).setWidth 32

theorem getLsbD_highBits_low (x : Word) (i : Nat) (h : i < 8) : (highBits x).getLsbD i = false := by
  simp [highBits, h]
  omega

theorem setWidth_ushiftRight_eight (b : Byte) : b.setWidth 32 >>> 8 = 0#32 := by
  apply BitVec.eq_of_getLsbD_eq
  intro i _
  simp

theorem highBits_ushiftRight (x : Word) : highBits x >>> 8 = x >>> 8 := by
  rw [highBits, BitVec.ushiftRight_xor_distrib, setWidth_ushiftRight_eight, BitVec.xor_zero]

/-- The low byte goes through the table, the rest is shifted out (40_crc_engine.md R70). -/
theorem crcShifts_eight (x : Word) : crcShifts 8 x = crcTable (x.extractLsb' 0 8) ^^^ x >>> 8 := by
  calc crcShifts 8 x
      = crcShifts 8 ((x.extractLsb' 0 8).setWidth 32 ^^^ highBits x) := by
        rw [highBits, BitVec.xor_comm x, ← BitVec.xor_assoc, BitVec.xor_self, BitVec.zero_xor]
    _ = crcTable (x.extractLsb' 0 8) ^^^ highBits x >>> 8 := by
        rw [crcShifts_xor, crcShifts_of_low_zero 8 (highBits x) (getLsbD_highBits_low x), crcTable]
    _ = crcTable (x.extractLsb' 0 8) ^^^ x >>> 8 := by rw [highBits_ushiftRight]

theorem crcStep_eq_crcShifts (c : Word) (b : Byte) : crcStep c b = crcShifts 8 (c ^^^ b.setWidth 32) := by
  rw [crcShifts_eight, BitVec.ushiftRight_xor_distrib, setWidth_ushiftRight_eight, BitVec.xor_zero, crcStep]

theorem crcStep_left_injective (b : Byte) : Function.Injective (crcStep · b) := by
  intro c c' h
  simp only [crcStep_eq_crcShifts] at h
  exact (BitVec.xor_left_inj _).1 (crcShifts_injective 8 h)

theorem crcStep_right_injective (c : Word) : Function.Injective (crcStep c) := by
  intro b b' h
  rw [crcStep_eq_crcShifts, crcStep_eq_crcShifts] at h
  have hwide : b.setWidth 32 = b'.setWidth 32 := (BitVec.xor_right_inj _).1 (crcShifts_injective 8 h)
  simpa using congrArg (BitVec.setWidth 8) hwide

/-- The rest of a list keeps two running values apart. -/
theorem foldl_crcStep_injective (bs : List Byte) : Function.Injective (fun c => bs.foldl crcStep c) := by
  induction bs with
  | nil => exact Function.injective_id
  | cons b bs ih => exact ih.comp (crcStep_left_injective b)

theorem crc32nc_ne_of_byte_ne (pre post : List Byte) {b b' : Byte} (h : b ≠ b') :
    crc32nc (pre ++ b :: post) ≠ crc32nc (pre ++ b' :: post) := by
  intro heq
  simp only [crc32nc, List.foldl_append, List.foldl_cons] at heq
  exact h (crcStep_right_injective _ (foldl_crcStep_injective post heq))

/-! ## Words of four bytes -/

theorem toNat_append_byte {n : Nat} (x : BitVec n) (b : Byte) :
    (x ++ b).toNat = x.toNat * 2 ^ 8 + b.toNat := by
  rw [BitVec.toNat_append, ← Nat.shiftLeft_add_eq_or_of_lt b.isLt, Nat.shiftLeft_eq]

theorem toNat_be32 (b₀ b₁ b₂ b₃ : Byte) :
    (be32 b₀ b₁ b₂ b₃).toNat = b₀.toNat * 2 ^ 24 + b₁.toNat * 2 ^ 16 + b₂.toNat * 2 ^ 8 + b₃.toNat := by
  rw [be32, toNat_append_byte, toNat_append_byte, toNat_append_byte]
  omega

theorem be32_of_toBE32_eq {v : Word} {b₀ b₁ b₂ b₃ : Byte} (h : toBE32 v = [b₀, b₁, b₂, b₃]) :
    be32 b₀ b₁ b₂ b₃ = v := by
  simp only [toBE32, List.cons.injEq, and_true] at h
  obtain ⟨rfl, rfl, rfl, rfl⟩ := h
  exact be32_of_toBE32 v

/-! ## What a range holds -/

theorem holds_append {s : State} {a : Nat} {x y : List Byte} :
    s.holds a (x ++ y) ↔ s.holds a x ∧ s.holds (a + x.length) y := by
  constructor
  · intro h
    refine ⟨fun i hi => ?_, fun i hi => ?_⟩
    · rw [h i (by simp; omega), List.getElem_append_left hi]
    · rw [Nat.add_assoc, h (x.length + i) (by simp; omega), List.getElem_append_right (by omega)]
      simp
  · rintro ⟨hx, hy⟩ i hi
    by_cases hlt : i < x.length
    · rw [hx i hlt, List.getElem_append_left hlt]
    · rw [List.getElem_append_right (by omega), ← hy]
      congr 1
      omega

theorem readMem_of_holds {s : State} {a : Nat} {d : List Byte} (h : s.holds a d) :
    s.readMem a d.length = d := by
  apply List.ext_getElem (by simp)
  intro i _ hi
  rw [State.getElem_readMem, h i hi]

theorem readWord_of_holds {s : State} {a : Nat} {v : Word} (h : s.holds a (toBE32 v)) : s.readWord a = v := by
  have h₀ : s.readByte a = v.extractLsb' 24 8 := h 0 (by simp)
  have h₁ : s.readByte (a + 1) = v.extractLsb' 16 8 := h 1 (by simp)
  have h₂ : s.readByte (a + 2) = v.extractLsb' 8 8 := h 2 (by simp)
  have h₃ : s.readByte (a + 3) = v.extractLsb' 0 8 := h 3 (by simp)
  rw [State.readWord, h₀, h₁, h₂, h₃, be32_of_toBE32]

theorem holds_writeMem (s : State) (a : Nat) (bs : List Byte) : (s.writeMem a bs).holds a bs := fun i hi =>
  s.readByte_writeMem_inside a bs i hi

/-! ## `CRC` -/

/-- The rule on a range that is neither null nor wrapping. -/
theorem crcRule_of_range {s : State} {l : Latch} (hnull : isNull l.srcAddr.toNat l.srcLen.toNat = false)
    (hwraps : wraps l.srcAddr.toNat l.srcLen.toNat = false) :
    crcRule s l
      = (s.setCrcOut (chunkCrc l.typeCode (s.readMem l.srcAddr.toNat l.srcLen.toNat))).complete l .ok 0 := by
  simp [crcRule, hnull, hwraps]

theorem crcRule_of_null {s : State} {l : Latch} (h : isNull l.srcAddr.toNat l.srcLen.toNat = true) :
    crcRule s l = s.complete l .nullArgument 0 := by
  simp [crcRule, h]

theorem crcRule_of_wraps {s : State} {l : Latch} (hnull : isNull l.srcAddr.toNat l.srcLen.toNat = false)
    (h : wraps l.srcAddr.toNat l.srcLen.toNat = true) : crcRule s l = s.complete l .illegalArgument 0 := by
  simp [crcRule, hnull, h]

/-- A command whose rule comes to a completion has no other effect. -/
theorem exists_onlyCompleted {o : Host.Outcome State Fault Refusal} {s u : State} {l : Latch} {e : ErrorKind}
    {r : Word} (ho : o = .next u) (h : u = s.complete l e r) : ∃ t, o = .next t ∧ OnlyCompleted s t l e r :=
  ⟨u, ho, h ▸ onlyCompleted_complete s l e r⟩

end Sys2Proof.Machine

namespace Sys2Proof.Proofs.CrcEngineFamily

open Sys2Proof Sys2Proof.Machine

/-- Settles O11: past both range checks the rule reads the range and writes `CRC_OUT`. -/
theorem crcStoresTheChunkCrc : Obligations.CrcStoresTheChunkCrc := by
  intro s l d hl hlen hnull hwraps hd
  have heffect : commandEffect .crc s l = _ :=
    crcRule_of_range (isNull_word_eq_false hnull) (wraps_eq_false.2 hwraps)
  rw [← hlen, readMem_of_holds hd] at heffect
  rw [exec_some hl, heffect]
  exact ⟨_, rfl, SameHostSide.completed (by simp) l .ok 0, rfl, rfl, sameSlots_of_slots_eq rfl,
    sameMem_of_mem_eq rfl⟩

/-- Settles O12: by the two range checks, which come before the rule's effect. -/
theorem crcRejectsNullThenWrappingRanges : Obligations.CrcRejectsNullThenWrappingRanges :=
  fun _ _ hl =>
    ⟨fun hn ha => exists_onlyCompleted (exec_some hl .crc) (crcRule_of_null (isNull_word.2 ⟨hn, ha⟩)),
      fun ha h => exists_onlyCompleted (exec_some hl .crc)
        (crcRule_of_wraps (isNull_word_eq_false (.inr ha)) (wraps_eq_true.2 h))⟩

/-- Settles O51: the shift is linear, so the low byte can be shifted on its own, through the table. -/
theorem tableStepIsBitSerial : Obligations.TableStepIsBitSerial := crcStep_eq_crcShifts

/-- Settles O53: the step is one-to-one in the byte, and in the running value, which carries the difference to
the end. -/
theorem singleByteChangesChangeTheCrc : Obligations.SingleByteChangesChangeTheCrc :=
  fun pre post _ _ h => crc32nc_ne_of_byte_ne pre post h

/-- Settles O57: the bytes of a word are its digits to base 256. -/
theorem bigEndianWordsRoundTrip : Obligations.BigEndianWordsRoundTrip :=
  ⟨fun b₀ b₁ b₂ b₃ => ⟨toNat_be32 b₀ b₁ b₂ b₃, toBE32_be32 b₀ b₁ b₂ b₃⟩, fun _ _ _ _ _ => be32_of_toBE32_eq⟩

/-- Settles O52: the CRC evaluated on each list. -/
theorem knownCrcValues : Obligations.KnownCrcValues := by
  unfold Obligations.KnownCrcValues
  decide +kernel

end Sys2Proof.Proofs.CrcEngineFamily

/-! SUPPORT. The rules the statements about `CREATE` and `ADOPT` rest on: each rule as the errors its checks
raise, and its effect past them. -/

namespace Sys2Proof.Machine

/-! ## `CREATE` -/

/-- The five argument checks of `CREATE` (41_chunk_codec.md R81). -/
def CreateRefused (s : State) (l : Latch) (k : Fin Config.numSlots) : Prop :=
  (s.slot k).full = true ∨ (l.srcLen ≠ 0 ∧ l.srcAddr = 0) ∨ Config.maxChunkLen < l.srcLen.toNat
    ∨ typeIsValid l.typeCode = false ∨ Config.memBytes < l.srcAddr.toNat + l.srcLen.toNat

theorem not_createRefused {s : State} {l : Latch} {k : Fin Config.numSlots} (hempty : (s.slot k).full = false)
    (hnull : l.srcLen = 0 ∨ l.srcAddr ≠ 0) (hmax : l.srcLen.toNat ≤ Config.maxChunkLen)
    (htype : typeIsValid l.typeCode = true) (hwraps : l.srcAddr.toNat + l.srcLen.toNat ≤ Config.memBytes) :
    ¬ CreateRefused s l k := by
  simp only [CreateRefused, not_or]
  exact ⟨by simp [hempty], fun ⟨hn, ha⟩ => hnull.elim hn (absurd ha), Nat.not_lt.2 hmax, by simp [htype],
    Nat.not_lt.2 hwraps⟩

theorem createRule_of_refused {s : State} {l : Latch} {k : Fin Config.numSlots} (h : CreateRefused s l k) :
    createRule s l k = s.complete l .illegalArgument 0 := by
  simp only [createRule, isNull_word, wraps_eq_true, Bool.not_eq_true', ← ite_or]
  exact if_pos h

theorem createRule_of_accepted {s : State} {l : Latch} {k : Fin Config.numSlots} (h : ¬ CreateRefused s l k) :
    createRule s l k = if l.srcLen.toNat ≤ Config.slotBytes then (createFill s l k).complete l .ok 0
      else s.complete l .outOfMemory 0 := by
  simp only [createRule, isNull_word, wraps_eq_true, Bool.not_eq_true', ← ite_or]
  refine (if_neg h).trans ?_
  by_cases hfits : l.srcLen.toNat ≤ Config.slotBytes <;> simp [fitsSlot, hfits, createFill]

/-! ## `ADOPT` -/

/-- The four argument checks of `ADOPT` (R82). -/
def AdoptRefused (s : State) (l : Latch) (k : Fin Config.numSlots) : Prop :=
  (s.slot k).full = true ∨ Config.maxChunkLen < l.srcLen.toNat ∨ typeIsValid l.typeCode = false
    ∨ Config.slotBytes < l.srcLen.toNat

theorem adoptRule_of_refused {s : State} {l : Latch} {k : Fin Config.numSlots} (h : AdoptRefused s l k) :
    adoptRule s l k = s.complete l .illegalArgument 0 := by
  simp only [adoptRule, fitsSlot, Bool.not_eq_true', decide_eq_false_iff_not, not_le, ← ite_or]
  exact if_pos h

theorem adoptRule_of_accepted {s : State} {l : Latch} {k : Fin Config.numSlots} (h : ¬ AdoptRefused s l k) :
    adoptRule s l k = (s.setRecord k true l.typeCode l.srcLen).complete l .ok 0 := by
  simp only [adoptRule, fitsSlot, Bool.not_eq_true', decide_eq_false_iff_not, not_le, ← ite_or]
  exact if_neg h

/-! ## The slot of a one-slot command -/

theorem exec_create {s : State} {l : Latch} (h : s.latch = some l) (k : Fin Config.numSlots) :
    exec (.create k.val) s = .next (createRule s l k) := by
  rw [exec_some h, commandEffect, onSlot_val]

theorem exec_adopt {s : State} {l : Latch} (h : s.latch = some l) (k : Fin Config.numSlots) :
    exec (.adopt k.val) s = .next (adoptRule s l k) := by
  rw [exec_some h, commandEffect, onSlot_val]

theorem exec_ser {s : State} {l : Latch} (h : s.latch = some l) (k : Fin Config.numSlots) :
    exec (.ser k.val) s = .next (serRule s l k) := by
  rw [exec_some h, commandEffect, onSlot_val]

theorem exec_deser {s : State} {l : Latch} (h : s.latch = some l) (k : Fin Config.numSlots) :
    exec (.deser k.val) s = .next (deserRule Config.deserValidatesType s l k) := by
  rw [exec_some h, commandEffect, onSlot_val]

end Sys2Proof.Machine

namespace Sys2Proof.Proofs.ChunkCodecFamily

open Sys2Proof Sys2Proof.Machine

/-- Settles O13: past its checks the rule writes the range to the first cells of the slot, then its record. -/
theorem createCopiesTheRangeIntoTheSlot : Obligations.CreateCopiesTheRangeIntoTheSlot := by
  intro s l k hl hempty hnull htype hwraps hfits
  have haccepted : ¬ CreateRefused s l k :=
    not_createRefused hempty hnull (hfits.trans slotBytes_le_maxChunkLen) htype hwraps
  have hexec := exec_create hl k
  rw [createRule_of_accepted haccepted, if_pos hfits] at hexec
  refine ⟨_, hexec, SameHostSide.completed (by simp [createFill]) l .ok 0, ?full, ?stype, ?slen,
    fun o ho => ?inside, fun o ho => ?past, fun j hj => ?others, sameMem_of_mem_eq rfl, rfl, rfl⟩
  case full | stype | slen => simp [createFill, State.slot_setRecord]
  case inside => rw [State.ramCell_complete, ramCell_createFill, if_pos ⟨rfl, ho⟩]
  case past => rw [State.ramCell_complete, ramCell_createFill, if_neg (fun h => absurd h.2 (Nat.not_lt.2 ho))]
  case others => exact sameSlot_of_slot_eq (slot_createFill_ne s l hj)

/-- Settles O14: by the five argument checks, then the capacity check. -/
theorem createRejectsInOrder : Obligations.CreateRejectsInOrder := by
  intro s l k hl
  refine ⟨fun h => ?refused, fun hempty hnull hmax htype hwraps hlong => ?tooLong⟩
  case refused => exact exists_onlyCompleted (exec_create hl k) (createRule_of_refused h)
  case tooLong =>
    have haccepted : ¬ CreateRefused s l k := not_createRefused hempty hnull hmax htype hwraps
    exact exists_onlyCompleted (exec_create hl k)
      ((createRule_of_accepted haccepted).trans (if_neg (Nat.not_le.2 hlong)))

/-- Settles O15: past its checks the rule writes the record alone. -/
theorem adoptFillsTheSlotInPlace : Obligations.AdoptFillsTheSlotInPlace := by
  intro s l k hl hempty htype hfits
  have haccepted : ¬ AdoptRefused s l k := by
    simp only [AdoptRefused, not_or]
    exact ⟨by simp [hempty], Nat.not_lt.2 (hfits.trans slotBytes_le_maxChunkLen), by simp [htype],
      Nat.not_lt.2 hfits⟩
  have hexec := exec_adopt hl k
  rw [adoptRule_of_accepted haccepted] at hexec
  refine ⟨_, hexec, SameHostSide.completed (by simp) l .ok 0,
    ?full, ?stype, ?slen, fun o => s.ramCell_setRecord k k _ _ _ o, fun j hj => ?others,
    sameMem_of_mem_eq rfl, rfl, rfl⟩
  case full | stype | slen => simp [State.slot_setRecord]
  case others => exact sameSlot_of_slot_eq (by rw [State.slot_complete, State.slot_setRecord, if_neg hj])

/-- Settles O16: each of the four checks raises the same error. -/
theorem adoptRejects : Obligations.AdoptRejects := fun _ _ k hl h =>
  exists_onlyCompleted (exec_adopt hl k) (adoptRule_of_refused h)

end Sys2Proof.Proofs.ChunkCodecFamily

/-! SUPPORT. The rules the statements about `SER` and `DESER` rest on: the checks of each in order, what `SER`
stores, and `DESER` of a range that begins with a frame. -/

namespace Sys2Proof.Machine

/-! ## `SER` -/

section SerChecks

variable {s : State} {l : Latch} {k : Fin Config.numSlots}

theorem serRule_of_empty (h : (s.slot k).full = false) : serRule s l k = s.complete l .illegalArgument 0 := by
  simp [serRule, h]

variable (hfull : (s.slot k).full = true)
include hfull

theorem serRule_of_null (h : isNull l.dstAddr.toNat l.dstCap.toNat = true) :
    serRule s l k = s.complete l .nullArgument 0 := by
  simp [serRule, hfull, h]

variable (hnull : isNull l.dstAddr.toNat l.dstCap.toNat = false)
include hnull

theorem serRule_of_wraps (h : wraps l.dstAddr.toNat l.dstCap.toNat = true) :
    serRule s l k = s.complete l .illegalArgument 0 := by
  simp [serRule, hfull, hnull, h]

variable (hwraps : wraps l.dstAddr.toNat l.dstCap.toNat = false)
include hwraps

theorem serRule_of_small (h : l.dstCap.toNat < (s.slot k).slen.toNat + 12) :
    serRule s l k = s.complete l .capacityExceeded (BitVec.ofNat 32 ((s.slot k).slen.toNat + 12)) := by
  simp [serRule, hfull, hnull, hwraps, h]

theorem serRule_of_room (h : (s.slot k).slen.toNat + 12 ≤ l.dstCap.toNat) :
    serRule s l k = serStore s l k := by
  simp [serRule, hfull, hnull, hwraps, Nat.not_lt.2 h]

end SerChecks

/-- A length within R31 (b) and 12 bytes more fit in a result register. -/
theorem toNat_ofNat_frameSize {n : Nat} (h : n ≤ Config.maxChunkLen) :
    (BitVec.ofNat 32 (n + 12)).toNat = n + 12 := by
  have hbound : Config.maxChunkLen + 12 < 2 ^ 32 := by decide
  rw [BitVec.toNat_ofNat, Nat.mod_eq_of_lt (by omega)]

/-! ## `DESER` -/

theorem typeCheck_passes {v : Bool} {tc : Word} (h : v = true → typeIsValid tc = true) :
    (!typeIsValid tc && v) = false := by
  cases v with
  | false => exact Bool.and_false _
  | true => rw [h rfl]; rfl

section DeserChecks

variable {v : Bool} {s : State} {l : Latch} {k : Fin Config.numSlots}

theorem deserRule_of_full (h : (s.slot k).full = true) :
    deserRule v s l k = s.complete l .illegalArgument 0 := by
  simp [deserRule, h]

variable (hempty : (s.slot k).full = false)
include hempty

theorem deserRule_of_null (h : isNull l.srcAddr.toNat l.srcLen.toNat = true) :
    deserRule v s l k = s.complete l .nullArgument 0 := by
  simp [deserRule, hempty, h]

variable (hnull : isNull l.srcAddr.toNat l.srcLen.toNat = false)
include hnull

theorem deserRule_of_wraps (h : wraps l.srcAddr.toNat l.srcLen.toNat = true) :
    deserRule v s l k = s.complete l .illegalArgument 0 := by
  simp [deserRule, hempty, hnull, h]

variable (hwraps : wraps l.srcAddr.toNat l.srcLen.toNat = false)
include hwraps

theorem deserRule_of_short (h : l.srcLen.toNat < 4) :
    deserRule v s l k = s.complete l .incompleteData 12 := by
  simp [deserRule, hempty, hnull, hwraps, h]

variable {len : Word} (hlen : s.readWord l.srcAddr.toNat = len) (hfour : 4 ≤ l.srcLen.toNat)
include hlen hfour

theorem deserRule_of_malformed (h : Config.maxChunkLen < len.toNat) :
    deserRule v s l k = s.complete l .malformedData 0 := by
  simp [deserRule, hempty, hnull, hwraps, Nat.not_lt.2 hfour, hlen, h]

variable (hmax : len.toNat ≤ Config.maxChunkLen)
include hmax

theorem deserRule_of_incomplete (h : l.srcLen.toNat < len.toNat + 12) :
    deserRule v s l k = s.complete l .incompleteData (BitVec.ofNat 32 (len.toNat + 12)) := by
  simp [deserRule, hempty, hnull, hwraps, Nat.not_lt.2 hfour, hlen, Nat.not_lt.2 hmax, h]

variable {tc : Word} (htc : s.readWord (l.srcAddr.toNat + 4) = tc) (hroom : len.toNat + 12 ≤ l.srcLen.toNat)
include htc hroom

/-- The rule past its checks of the range and of the length: the type and the capacity are left to check. -/
theorem deserRule_of_sized :
    deserRule v s l k = if !typeIsValid tc && v then s.complete l .illegalArgument 0
      else if !fitsSlot len.toNat then s.complete l .outOfMemory 0 else deserVerify s l k len := by
  simp [deserRule, hempty, hnull, hwraps, Nat.not_lt.2 hfour, hlen, Nat.not_lt.2 hmax,
    Nat.not_lt.2 hroom, htc]

theorem deserRule_of_type (h : typeIsValid tc = false) (hv : v = true) :
    deserRule v s l k = s.complete l .illegalArgument 0 := by
  rw [deserRule_of_sized hempty hnull hwraps hlen hfour hmax htc hroom, h, hv]
  rfl

variable (htype : v = true → typeIsValid tc = true)
include htype

theorem deserRule_of_typed :
    deserRule v s l k = if len.toNat ≤ Config.slotBytes then deserVerify s l k len
      else s.complete l .outOfMemory 0 := by
  rw [deserRule_of_sized hempty hnull hwraps hlen hfour hmax htc hroom, typeCheck_passes htype]
  by_cases hfits : len.toNat ≤ Config.slotBytes <;> simp [fitsSlot, hfits]

end DeserChecks

/-- The outcome of the comparison (R84). -/
def deserOutcome (s : State) (l : Latch) (k : Fin Config.numSlots) (tc : Word) (d : List Byte)
    (received : Word) : State :=
  if chunkCrc tc d ≠ received then (deserStored s k tc d received).complete l .checksumMismatch 0
  else ((deserStored s k tc d received).setRecord k true tc (BitVec.ofNat 32 d.length)).complete l .ok
    (BitVec.ofNat 32 (d.length + 12))

section DeserOutcome

variable {s : State} {l : Latch} {k : Fin Config.numSlots} {tc received : Word} {d : List Byte}

theorem deserOutcome_of_ne (h : chunkCrc tc d ≠ received) :
    deserOutcome s l k tc d received = (deserStored s k tc d received).complete l .checksumMismatch 0 :=
  if_pos h

theorem deserOutcome_of_eq (h : chunkCrc tc d = received) :
    deserOutcome s l k tc d received
      = ((deserStored s k tc d received).setRecord k true tc (BitVec.ofNat 32 d.length)).complete l .ok
          (BitVec.ofNat 32 (d.length + 12)) :=
  if_neg (not_not.2 h)

end DeserOutcome

section DeserFrame

variable {v : Bool} {s : State} {l : Latch} {k : Fin Config.numSlots} {tc received : Word} {d : List Byte}

/-- The fields of a frame as `DESER` reads them: each stands right after the ones before it. -/
theorem reads_of_holds_frame {a : Nat} {len : Word}
    (h : s.holds a (toBE32 len ++ toBE32 tc ++ d ++ toBE32 received)) :
    s.readWord a = len ∧ s.readWord (a + 4) = tc ∧ s.readMem (a + 8) d.length = d
      ∧ s.readWord (a + 8 + d.length) = received := by
  simp only [holds_append, List.length_append, length_toBE32] at h
  obtain ⟨⟨⟨hlen, htc⟩, hd⟩, hreceived⟩ := h
  rw [← Nat.add_assoc] at hreceived
  exact ⟨readWord_of_holds hlen, readWord_of_holds htc, readMem_of_holds hd, readWord_of_holds hreceived⟩

variable (hempty : (s.slot k).full = false) (haddr : l.srcAddr ≠ 0)
  (hrange : l.srcAddr.toNat + l.srcLen.toNat ≤ Config.memBytes) (hfits : d.length ≤ Config.slotBytes)
  (hroom : d.length + 12 ≤ l.srcLen.toNat)
  (hholds : s.holds l.srcAddr.toNat
    (toBE32 (BitVec.ofNat 32 d.length) ++ toBE32 tc ++ d ++ toBE32 received))
include hempty haddr hrange hfits hroom hholds

/-- `DESER` of a range that begins with a frame of data the slot can hold: the type check, then the comparison
of the CRCs. -/
theorem deserRule_of_frame :
    deserRule v s l k = if !typeIsValid tc && v then s.complete l .illegalArgument 0
      else deserOutcome s l k tc d received := by
  obtain ⟨hlen, htc, hd, hreceived⟩ := reads_of_holds_frame hholds
  have hlength : (BitVec.ofNat 32 d.length).toNat = d.length := by
    rw [BitVec.toNat_ofNat, Nat.mod_eq_of_lt (by omega)]
  have hmax := hfits.trans slotBytes_le_maxChunkLen
  have hverify : deserVerify s l k (BitVec.ofNat 32 d.length) = deserOutcome s l k tc d received := by
    simp only [deserVerify, htc, hlength, hd, hreceived]
    rfl
  have hfour : 4 ≤ l.srcLen.toNat := by omega
  have hslot : (!fitsSlot d.length) = false := by simp [fitsSlot, hfits]
  rw [deserRule_of_sized hempty (isNull_word_eq_false (.inr haddr)) (wraps_eq_false.2 hrange) hlen hfour
    (hlength.symm ▸ hmax) htc (hlength.symm ▸ hroom), hverify, hlength, hslot]
  rfl

theorem deserRule_of_typedFrame (htype : v = true → typeIsValid tc = true) :
    deserRule v s l k = deserOutcome s l k tc d received := by
  rw [deserRule_of_frame hempty haddr hrange hfits hroom hholds, typeCheck_passes htype]
  rfl

theorem deserRule_of_untypedFrame (htype : typeIsValid tc = false) (hv : v = true) :
    deserRule v s l k = s.complete l .illegalArgument 0 := by
  rw [deserRule_of_frame hempty haddr hrange hfits hroom hholds, htype, hv]
  rfl

end DeserFrame

/-! ## A frame with one byte changed -/

/-- Four bytes or more begin with a word. -/
theorem exists_toBE32_append {bs : List Byte} (h : 4 ≤ bs.length) : ∃ v rest, bs = toBE32 v ++ rest := by
  match bs, h with
  | b₀ :: b₁ :: b₂ :: b₃ :: rest, _ => exact ⟨be32 b₀ b₁ b₂ b₃, rest, by rw [toBE32_be32]; rfl⟩

/-- A word changed in one byte is another word. -/
theorem tampered_word {v : Word} {j : Nat} {b : Byte} (hj : j < 4) (hne : (toBE32 v)[j]? ≠ some b) :
    ∃ w, (toBE32 v).set j b = toBE32 w ∧ w ≠ v := by
  obtain ⟨w, rest, hset⟩ := exists_toBE32_append (bs := (toBE32 v).set j b) (by simp)
  have hrest : rest = [] := by simpa using congrArg List.length hset
  rw [hrest, List.append_nil] at hset
  refine ⟨w, hset, ?_⟩
  rintro rfl
  exact hne (by rw [← hset, List.getElem?_set_self (by simpa using hj)])

theorem crc32nc_set_ne {bs : List Byte} {i : Nat} {b : Byte} (hi : i < bs.length) (hne : bs[i] ≠ b) :
    crc32nc (bs.set i b) ≠ crc32nc bs := by
  have hsplit : bs = bs.take i ++ bs[i] :: bs.drop (i + 1) := by simp
  rw [List.set_eq_take_append_cons_drop, if_pos hi]
  conv_rhs => rw [hsplit]
  exact crc32nc_ne_of_byte_ne _ _ hne.symm

/-- The type and the data changed in one byte: another CRC, and the byte is the one new byte of the type. -/
theorem tampered_message {tc : Word} {d : List Byte} {j : Nat} {b : Byte} (hj : j < d.length + 4)
    (hne : (toBE32 tc ++ d)[j]? ≠ some b) :
    ∃ tc' d', (toBE32 tc ++ d).set j b = toBE32 tc' ++ d' ∧ d'.length = d.length
      ∧ chunkCrc tc' d' ≠ chunkCrc tc d ∧ ∀ c ∈ toBE32 tc', c ∈ toBE32 tc ∨ (c = b ∧ j < 4) := by
  have hlt : j < (toBE32 tc ++ d).length := by simp; omega
  obtain ⟨tc', d', hsplit⟩ := exists_toBE32_append (bs := (toBE32 tc ++ d).set j b) (by simp)
  have hlength : d'.length = d.length := by simpa using (congrArg List.length hsplit).symm
  have htype : toBE32 tc' = (toBE32 tc).set j b := by
    calc toBE32 tc' = (toBE32 tc' ++ d').take 4 := rfl
      _ = ((toBE32 tc ++ d).take 4).set j b := by rw [← hsplit, List.take_set]
      _ = (toBE32 tc).set j b := rfl
  refine ⟨tc', d', hsplit, hlength, ?crc, fun c hc => ?type⟩
  case crc =>
    rw [chunkCrc, ← hsplit]
    exact crc32nc_set_ne hlt (fun h => hne (by rw [List.getElem?_eq_getElem hlt, h]))
  case type =>
    rw [htype] at hc
    by_cases hj4 : j < 4
    · exact (List.mem_or_eq_of_mem_set hc).imp_right fun h => ⟨h, hj4⟩
    · rw [List.set_eq_of_length_le (by simpa using hj4)] at hc
      exact .inl hc

/-- A frame with one byte past its length field changed lays out a type, data of the same length and a CRC
field that is not their CRC. -/
theorem tampered_frame {len tc : Word} {d : List Byte} {i : Nat} {b : Byte} (hi4 : 4 ≤ i)
    (hi : i < d.length + 12) (hne : (frame len tc d)[i]? ≠ some b) :
    ∃ tc' d' received, (frame len tc d).set i b = toBE32 len ++ toBE32 tc' ++ d' ++ toBE32 received
      ∧ d'.length = d.length ∧ chunkCrc tc' d' ≠ received
      ∧ ∀ c ∈ toBE32 tc', c ∈ toBE32 tc ∨ (c = b ∧ i < 8) := by
  have hframe : frame len tc d = toBE32 len ++ ((toBE32 tc ++ d) ++ toBE32 (chunkCrc tc d)) := by
    simp [frame]
  rw [hframe, List.getElem?_append_right hi4] at hne
  rw [hframe, List.set_append_right _ _ hi4]
  simp only [length_toBE32] at hne ⊢
  by_cases hmessage : i - 4 < d.length + 4
  · rw [List.getElem?_append_left (by simp; omega)] at hne
    obtain ⟨tc', d', hset, hlength, hcrc, htype⟩ := tampered_message hmessage hne
    refine ⟨tc', d', chunkCrc tc d, ?_, hlength, hcrc,
      fun c hc => (htype c hc).imp_right fun h => ⟨h.1, by omega⟩⟩
    rw [List.set_append_left _ _ (by simp; omega), hset]
    simp
  · have hle : (toBE32 tc ++ d).length ≤ i - 4 := by simp; omega
    rw [List.getElem?_append_right hle] at hne
    rw [List.set_append_right _ _ hle]
    have hj : i - 4 - (toBE32 tc ++ d).length < 4 := by simp; omega
    obtain ⟨received, hset, hcrc⟩ := tampered_word hj hne
    exact ⟨tc, d, received, by rw [hset]; simp, rfl, hcrc.symm, fun c hc => .inl hc⟩

end Sys2Proof.Machine

namespace Sys2Proof.Proofs.ChunkCodecFamily

open Sys2Proof Sys2Proof.Machine

/-- Settles O17: past its checks the rule stores the frame of the bytes it reads once, for the data and for
the CRC. -/
theorem serWritesTheFrame : Obligations.SerWritesTheFrame := by
  intro s l k hl hfull haddr hrange hroom
  have hexec := exec_ser hl k
  rw [serRule_of_room hfull (isNull_word_eq_false (.inr haddr)) (wraps_eq_false.2 hrange) hroom] at hexec
  exact ⟨_, serData s k, hexec, SameHostSide.completed (by simp) l .ok _, length_serData s k,
    fun i h b hb => getElem_serData h hb, holds_writeMem s _ (serFrame s k), rfl, rfl,
    sameSlots_of_slots_eq rfl, fun x hx => readByte_serStore_outside hx⟩

/-- Settles O18: the capacity check comes last, and its result register can hold the required size. -/
theorem serReportsTheRequiredSize : Obligations.SerReportsTheRequiredSize := by
  intro s l k hl hfull hnull hrange hmax hsmall
  have hexec := exec_ser hl k
  rw [serRule_of_small hfull (isNull_word_eq_false hnull) (wraps_eq_false.2 hrange) hsmall] at hexec
  exact ⟨_, hexec, toNat_ofNat_frameSize hmax, onlyCompleted_complete s l _ _⟩

/-- Settles O19: by the first three checks. -/
theorem serRejectsInOrder : Obligations.SerRejectsInOrder := fun _ _ k hl =>
  ⟨fun hempty => exists_onlyCompleted (exec_ser hl k) (serRule_of_empty hempty),
    fun hfull hcap haddr => exists_onlyCompleted (exec_ser hl k)
      (serRule_of_null hfull (isNull_word.2 ⟨hcap, haddr⟩)),
    fun hfull haddr hwraps => exists_onlyCompleted (exec_ser hl k)
      (serRule_of_wraps hfull (isNull_word_eq_false (.inr haddr)) (wraps_eq_true.2 hwraps))⟩

/-- Settles O22: by the eight checks before the comparison of the CRCs, each past the ones before it. -/
theorem deserRejectsInOrder : Obligations.DeserRejectsInOrder := by
  intro s l k hl
  have hexec := exec_deser hl k
  refine ⟨fun hfull => ?full, fun hempty hn ha => ?null, fun hempty ha hwraps => ?wraps,
    fun hempty hnull hrange hshort => ?short, fun hempty ha hrange hfour len hlen => ?_⟩
  case full => exact exists_onlyCompleted hexec (deserRule_of_full hfull)
  case null => exact exists_onlyCompleted hexec (deserRule_of_null hempty (isNull_word.2 ⟨hn, ha⟩))
  case wraps =>
    exact exists_onlyCompleted hexec
      (deserRule_of_wraps hempty (isNull_word_eq_false (.inr ha)) (wraps_eq_true.2 hwraps))
  case short =>
    exact exists_onlyCompleted hexec
      (deserRule_of_short hempty (isNull_word_eq_false hnull) (wraps_eq_false.2 hrange) hshort)
  have hnull := isNull_word_eq_false (n := l.srcLen) (.inr ha)
  have hwraps := wraps_eq_false.2 hrange
  have hlen := readWord_of_holds hlen
  refine ⟨fun hlong => ?malformed, fun hmax hsmall => ?incomplete, fun hmax hroom tc htc => ?_⟩
  case malformed =>
    exact exists_onlyCompleted hexec (deserRule_of_malformed hempty hnull hwraps hlen hfour hlong)
  case incomplete =>
    rw [deserRule_of_incomplete hempty hnull hwraps hlen hfour hmax hsmall] at hexec
    exact ⟨_, hexec, toNat_ofNat_frameSize hmax, onlyCompleted_complete s l _ _⟩
  have htc := readWord_of_holds htc
  refine ⟨fun hinvalid => ?type, fun htype hlong => ?capacity⟩
  case type =>
    refine ⟨_, hexec, fun hparam => ?_⟩
    rw [deserRule_of_type hempty hnull hwraps hlen hfour hmax htc hroom hinvalid hparam]
    exact onlyCompleted_complete s l _ _
  case capacity =>
    have htyped := deserRule_of_typed hempty hnull hwraps hlen hfour hmax htc hroom htype
    exact exists_onlyCompleted hexec (htyped.trans (if_neg (Nat.not_le.2 hlong)))

/-- Settles O20: the frame passes every check, and its CRC field is the CRC of its type and data. -/
theorem deserAcceptsAFrame : Obligations.DeserAcceptsAFrame := by
  intro s l k tc d hl hempty haddr hrange hfits hroom htype hholds
  have hexec := exec_deser hl k
  rw [deserRule_of_typedFrame hempty haddr hrange hfits hroom hholds htype, deserOutcome_of_eq rfl] at hexec
  refine ⟨_, hexec, SameHostSide.completed (by simp [deserStored]) l .ok _, ?full, ?stype, ?slen,
    fun i hi => ?data, fun o ho => ?past, rfl, rfl, fun j hj => ?others, sameMem_of_mem_eq rfl⟩
  case full | stype | slen => simp [State.slot_setRecord]
  case data => rw [State.ramCell_complete, State.ramCell_setRecord, ramHolds_deserStored s k tc d _ i hi]
  case past => rw [State.ramCell_complete, State.ramCell_setRecord, ramCell_deserStored_past s k tc _ ho]
  case others =>
    exact sameSlot_of_slot_eq (by
      rw [State.slot_complete, State.slot_setRecord, if_neg hj, slot_deserStored_ne s tc d _ hj])

/-- Settles O21: the data is stored before the comparison, which leaves the record. -/
theorem deserKeepsAMismatchedFrameOut : Obligations.DeserKeepsAMismatchedFrameOut := by
  intro s l k tc received d hl hempty haddr hrange hfits hroom htype hne hholds
  have hexec := exec_deser hl k
  rw [deserRule_of_typedFrame hempty haddr hrange hfits hroom hholds htype,
    deserOutcome_of_ne hne.symm] at hexec
  exact ⟨_, hexec, SameHostSide.completed (by simp [deserStored]) l .checksumMismatch 0,
    sameRecord_deserStored s k k tc d received, ramHolds_deserStored s k tc d received,
    fun o ho => ramCell_deserStored_past s k tc received ho, rfl, rfl,
    fun j hj => sameSlot_of_slot_eq (slot_deserStored_ne s tc d received hj), sameMem_of_mem_eq rfl⟩

/-- Settles O54: the changed frame lays out a type, data and a CRC field that is not their CRC, so `DESER`
stops at the comparison, or at the type check if the changed byte made the type invalid. -/
theorem tamperedFramesNeverDeserialize : Obligations.TamperedFramesNeverDeserialize := by
  intro s l k tc d i b hl hempty haddr hrange hfits hroom htype hi4 hi hne hholds
  obtain ⟨tc', d', received, hset, hlength, hcrc, hbytes⟩ := tampered_frame hi4 hi hne
  rw [hset, ← hlength] at hholds
  rw [← hlength] at hfits hroom
  have hexec := exec_deser hl k
  by_cases hvalid : Config.deserValidatesType = true → typeIsValid tc' = true
  · rw [deserRule_of_typedFrame hempty haddr hrange hfits hroom hholds hvalid,
      deserOutcome_of_ne hcrc] at hexec
    exact ⟨_, hexec, sameRecord_deserStored s k k tc' d' received, .inl rfl⟩
  · obtain ⟨hparam, hinvalid⟩ : Config.deserValidatesType = true ∧ typeIsValid tc' = false := by
      simpa using hvalid
    rw [deserRule_of_untypedFrame hempty haddr hrange hfits hroom hholds hinvalid hparam] at hexec
    obtain ⟨c, hc, hletter⟩ := List.all_eq_false.1 hinvalid
    obtain hold | ⟨rfl, hi8⟩ := hbytes c hc
    · exact absurd (List.all_eq_true.1 (htype hparam) c hold) hletter
    · exact ⟨_, hexec, ⟨rfl, rfl, rfl⟩, .inr ⟨rfl, hi8, Bool.eq_false_iff.2 hletter, hparam⟩⟩

/-- Settles O55: `CREATE` writes every cell of the data, so `SER` reads the data and nothing else, and `DESER`
accepts the frame that `SER` writes. -/
theorem createdChunksSurviveTheRoundTrip : Obligations.CreatedChunksSurviveTheRoundTrip := by
  intro s l l₂ l₃ i j d hl hij hi hj htype hlen hfits hnull hrange hholds haddr₂ hcap hrange₂ hsame hroom₃
    hrange₃
  obtain ⟨t₁, hexec₁, -, hfull₁, hstype₁, hslen₁, hcells₁, -, hothers₁, -, -⟩ :=
    createCopiesTheRangeIntoTheSlot s l i hl hi hnull htype hrange (hlen ▸ hfits)
  have hsize : (t₁.slot i).slen.toNat = d.length := by rw [hslen₁, hlen]
  obtain ⟨t₂, d₂, hexec₂, hcompleted₂, hlen₂, hdata₂, hholds₂, -, -, hslots₂, -⟩ :=
    serWritesTheFrame { t₁ with latch := some l₂ } l₂ i rfl hfull₁ haddr₂ hrange₂ (hsize.symm ▸ hcap)
  have hd : d₂ = d := by
    refine List.ext_getElem (hlen₂.trans hsize) fun o ho₂ ho => hdata₂ o ho₂ _ ?_
    rw [← hholds o ho]
    exact hcells₁ o (hlen ▸ ho)
  have hframe : t₂.holds l₃.srcAddr.toNat (frame (BitVec.ofNat 32 d.length) l.typeCode d) := by
    have hslen : BitVec.ofNat 32 d.length = (t₁.slot i).slen := by
      rw [← hsize, BitVec.ofNat_toNat, BitVec.setWidth_eq]
    rw [hsame, hslen, ← hstype₁, ← hd]
    exact hholds₂
  have hempty : (t₂.slot j).full = false := by
    rw [(hslots₂ j).1.1]
    exact (hothers₁ j hij.symm).1.1.trans hj
  obtain ⟨t₃, hexec₃, hcompleted₃, hfull₃, hstype₃, hslen₃, hholds₃, -⟩ :=
    deserAcceptsAFrame { t₂ with latch := some l₃ } l₃ j l.typeCode d rfl hempty (hsame ▸ haddr₂) hrange₃
      hfits hroom₃ (fun _ => htype) hframe
  obtain ⟨-, hresult₂, -⟩ := hcompleted₂
  obtain ⟨herr₃, hresult₃, -⟩ := hcompleted₃
  have hmax := hfits.trans slotBytes_le_maxChunkLen
  refine ⟨t₁, t₂, t₃, hexec₁, hexec₂, hexec₃, herr₃, hfull₃, hstype₃, ?slen, hholds₃, ?result, ?size⟩
  case slen =>
    rw [hslen₃, BitVec.toNat_ofNat, Nat.mod_eq_of_lt (by omega)]
  case result =>
    rw [hresult₃, hresult₂, ← hsize]
    rfl
  case size => rw [hresult₃, toNat_ofNat_frameSize hmax]

end Sys2Proof.Proofs.ChunkCodecFamily

namespace Sys2Proof.Proofs.FrameFamily

open Sys2Proof Sys2Proof.Machine

/-- Settles O26: of the commands' effects the one of `SER` alone writes `M`. -/
theorem onlySerChangesHostMemory : Obligations.OnlySerChangesHostMemory := by
  intro i s t hexec hi
  obtain ⟨l, -, h⟩ := exec_leaves hexec
  exact sameMem_of_mem_eq (h.mem hi)

/-- Settles O27: the store writes the frame at `DST_ADDR`; an error completion writes nothing. -/
theorem serChangesOnlyTheFrameBytes : Obligations.SerChangesOnlyTheFrameBytes := by
  intro n s t l hl hexec
  obtain ⟨l', hl', h⟩ := exec_leaves hexec
  obtain rfl : l = l' := Option.some.inj (hl.symm.trans hl')
  cases h with
  | error _ e r =>
    have hmem : SameMem s (s.complete l e r) := sameMem_of_mem_eq rfl
    exact ⟨sameSlots_of_slots_eq rfl, rfl, fun _ _ x _ => hmem x, fun _ => hmem⟩
  | ser hn =>
    refine ⟨sameSlots_of_slots_eq rfl, rfl, fun j hj x hx => ?_, fun hok => absurd rfl hok⟩
    obtain rfl := Fin.ext (hn.symm.trans (slotIndex?_eq_some.1 hj))
    exact readByte_serStore_outside hx

/-- Settles O28: every effect writes the slots its command names. -/
theorem unnamedSlotsStay : Obligations.UnnamedSlotsStay := by
  intro i s t k hexec hk
  obtain ⟨l, -, h⟩ := exec_leaves hexec
  exact sameSlot_of_slot_eq (h.slot_unnamed hk)

/-- Settles O29: each effect writes the first cells of its slot, as many as the data has bytes, or none. -/
theorem cellsPastTheDataStay : Obligations.CellsPastTheDataStay := by
  intro s t l k hl
  have hleaves : ∀ {i : Instr}, exec i s = .next t → CommandLeaves s l i t := fun hexec => by
    rw [exec_some hl] at hexec
    exact Host.Outcome.next.inj hexec ▸ commandEffect_leaves _ s l
  refine ⟨fun hexec o ho => ?create, fun hexec len hlen o ho => ?deser, fun hexec o ho => ?free,
    fun hexec o => ?adopt, fun hexec o => ?clear⟩
  case create =>
    cases hleaves hexec with
    | error => rfl
    | create hn =>
      rw [State.ramCell_complete, ramCell_createFill, if_neg (fun h => absurd h.2 (Nat.not_lt.2 ho))]
  case deser =>
    have hread := readWord_of_holds hlen
    cases hleaves hexec with
    | error => rfl
    | mismatch hn tc d received hd _ =>
      obtain rfl := Fin.ext hn
      exact ramCell_deserStored_past s k tc received (by rw [hd, hread]; exact ho)
    | deser hn tc d received _ hd _ _ =>
      obtain rfl := Fin.ext hn
      rw [State.ramCell_complete, State.ramCell_setRecord]
      exact ramCell_deserStored_past s k tc received (by rw [hd, hread]; exact ho)
  case free =>
    cases hleaves hexec with
    | error => rfl
    | free hn =>
      obtain rfl := Fin.ext hn
      rw [ramCell_clearRule]
      cases hfull : (s.slot k).full with
      | true => exact ramCell_zeroData_past hfull ho
      | false => rw [zeroData_of_empty hfull]
  case adopt =>
    cases hleaves hexec with
    | error => rfl
    | adopt => exact s.ramCell_setRecord _ k _ _ _ o
  case clear =>
    cases hleaves hexec with
    | error => rfl
    | clear => exact ramCell_clearRule s l _ k o

/-- Settles O30: by which effects write the two registers; an error completion has no effect. -/
theorem crcRegistersChangeOnlyByTheirCommands : Obligations.CrcRegistersChangeOnlyByTheirCommands := by
  intro i s t hexec
  obtain ⟨l, -, h⟩ := exec_leaves hexec
  refine ⟨h.crcRcvd, h.crcOut, fun hok hmismatch => ?_⟩
  obtain ⟨e, r, rfl⟩ := h.eq_complete_of_error hok hmismatch
  exact ⟨rfl, rfl⟩

end Sys2Proof.Proofs.FrameFamily

/-! SUPPORT. A command reads neither the operand registers nor `M[0]`: its effect goes along with a change of
either. -/

namespace Sys2Proof.Machine

/-! ## A change of the state that a rule does not read -/

theorem onSlot_map {f : State → State} {s : State} {l : Latch} {n : Nat}
    {rule rule' : Fin Config.numSlots → State}
    (hcomplete : (f s).complete l .illegalArgument 0 = f (s.complete l .illegalArgument 0))
    (hrule : ∀ k, rule' k = f (rule k)) : onSlot (f s) l n rule' = f (onSlot s l n rule) := by
  unfold onSlot
  split
  · exact hrule _
  · exact hcomplete

/-! ## The operand registers -/

/-- The state with other values in the five operand registers (10_state.md R25). -/
def State.withOperands (s : State) (a b c d e : Word) : State :=
  { s with typeReg := a, srcAddr := b, srcLen := c, dstAddr := d, dstCap := e }

section Operands

variable (a b c d e : Word)

theorem zeroData_withOperands (s : State) (k : Fin Config.numSlots) :
    zeroData (s.withOperands a b c d e) k = (zeroData s k).withOperands a b c d e := by
  simp only [zeroData, apply_ite (State.withOperands · a b c d e)]
  rfl

theorem swapSlots_withOperands (s : State) (ka kb : Fin Config.numSlots) :
    (s.withOperands a b c d e).swapSlots ka kb = (s.swapSlots ka kb).withOperands a b c d e := by
  simp only [State.swapSlots, apply_ite (State.withOperands · a b c d e)]
  rfl

theorem onSlot_withOperands {s : State} {l : Latch} {n : Nat} {rule rule' : Fin Config.numSlots → State}
    (h : ∀ k, rule' k = (rule k).withOperands a b c d e) :
    onSlot (s.withOperands a b c d e) l n rule' = (onSlot s l n rule).withOperands a b c d e :=
  onSlot_map (f := (State.withOperands · a b c d e)) rfl h

/-- Every rule reads its operands from the latch, so it leaves the same with other operand registers. -/
theorem commandEffect_withOperands (i : Instr) (s : State) (l : Latch) :
    commandEffect i (s.withOperands a b c d e) l = (commandEffect i s l).withOperands a b c d e := by
  cases i with
  | nop => rfl
  | crc =>
    simp only [commandEffect, crcRule, apply_ite (State.withOperands · a b c d e)]
    rfl
  | create sa | adopt sa | ser sa | deser sa =>
    refine onSlot_withOperands a b c d e fun k => ?_
    simp only [createRule, adoptRule, serRule, deserRule, deserVerify,
      apply_ite (State.withOperands · a b c d e)]
    rfl
  | clear sa => exact onSlot_withOperands a b c d e fun k => rfl
  | free sa =>
    refine onSlot_withOperands a b c d e fun k => ?_
    rw [freeRule_eq_clearRule, zeroData_withOperands]
    rfl
  | swap sa sb =>
    refine onSlot_withOperands a b c d e fun ka => onSlot_withOperands a b c d e fun kb => ?_
    rw [swapSlots_withOperands]
    rfl

end Operands

/-! ## `M[0]` -/

/-- The state with another host memory. -/
def State.withMem (s : State) (m : Memory) : State := { s with mem := m }

section ByteZero

variable {s : State} {m : Memory} (hagree : ∀ a, a ≠ 0 → (s.withMem m).readByte a = s.readByte a)
include hagree

theorem readMem_withMem {a n : Nat} (h : n = 0 ∨ a ≠ 0) : (s.withMem m).readMem a n = s.readMem a n := by
  refine List.ext_getElem (by simp) fun i hi _ => ?_
  rw [State.length_readMem] at hi
  rw [State.getElem_readMem, State.getElem_readMem, hagree _ (by omega)]

theorem readWord_withMem {a : Nat} (h : a ≠ 0) : (s.withMem m).readWord a = s.readWord a := by
  rw [State.readWord, State.readWord, hagree a h, hagree (a + 1) (by omega), hagree (a + 2) (by omega),
    hagree (a + 3) (by omega)]

/-- A null range is rejected before it is read. -/
theorem crcRule_withMem (l : Latch) : crcRule (s.withMem m) l = (crcRule s l).withMem m := by
  cases hnull : isNull l.srcAddr.toNat l.srcLen.toNat with
  | true => rw [crcRule_of_null hnull, crcRule_of_null hnull]; rfl
  | false =>
    simp only [crcRule, readMem_withMem hagree (isNull_eq_false.1 hnull), apply_ite (State.withMem · m)]
    rfl

theorem createRule_withMem (l : Latch) (k : Fin Config.numSlots) :
    createRule (s.withMem m) l k = (createRule s l k).withMem m := by
  cases hnull : isNull l.srcAddr.toNat l.srcLen.toNat with
  | true =>
    have hrefused : ∀ u : State, CreateRefused u l k := fun _ => .inr (.inl (isNull_word.1 hnull))
    rw [createRule_of_refused (hrefused _), createRule_of_refused (hrefused _)]
    rfl
  | false =>
    simp only [createRule, readMem_withMem hagree (isNull_eq_false.1 hnull), apply_ite (State.withMem · m)]
    rfl

omit hagree in
/-- At address 0 a range is null or too short for a length field, so `DESER` raises an error. -/
theorem deserRule_at_zero (v : Bool) {l : Latch} (k : Fin Config.numSlots) (h : l.srcAddr.toNat = 0) :
    deserRule v (s.withMem m) l k = (deserRule v s l k).withMem m := by
  cases hfull : (s.slot k).full with
  | true =>
    rw [deserRule_of_full (s := s.withMem m) hfull, deserRule_of_full hfull]
    rfl
  | false =>
    cases hnull : isNull l.srcAddr.toNat l.srcLen.toNat with
    | true =>
      rw [deserRule_of_null (s := s.withMem m) hfull hnull, deserRule_of_null hfull hnull]
      rfl
    | false =>
      have hlen : l.srcLen.toNat = 0 := (isNull_eq_false.1 hnull).resolve_right (not_not.2 h)
      have hwraps : wraps l.srcAddr.toNat l.srcLen.toNat = false := wraps_eq_false.2 (by omega)
      have hshort : l.srcLen.toNat < 4 := by omega
      rw [deserRule_of_short (s := s.withMem m) hfull hnull hwraps hshort,
        deserRule_of_short hfull hnull hwraps hshort]
      rfl

/-- Past address 0 every byte `DESER` reads agrees. -/
theorem deserRule_withMem (v : Bool) (l : Latch) (k : Fin Config.numSlots) :
    deserRule v (s.withMem m) l k = (deserRule v s l k).withMem m := by
  by_cases haddr : l.srcAddr.toNat = 0
  · exact deserRule_at_zero v k haddr
  · have hword : ∀ x, (s.withMem m).readWord (l.srcAddr.toNat + x) = s.readWord (l.srcAddr.toNat + x) :=
      fun x => readWord_withMem hagree (by omega)
    have hmem : ∀ x n, (s.withMem m).readMem (l.srcAddr.toNat + x) n = s.readMem (l.srcAddr.toNat + x) n :=
      fun x n => readMem_withMem hagree (.inr (by omega))
    have hfirst := hword 0
    rw [Nat.add_zero] at hfirst
    simp only [deserRule, deserVerify, hfirst, hword, hmem, Nat.add_assoc, apply_ite (State.withMem · m)]
    rfl

omit hagree in
theorem zeroData_withMem (k : Fin Config.numSlots) : zeroData (s.withMem m) k = (zeroData s k).withMem m := by
  simp only [zeroData, apply_ite (State.withMem · m)]
  rfl

omit hagree in
theorem swapSlots_withMem (ka kb : Fin Config.numSlots) :
    (s.withMem m).swapSlots ka kb = (s.swapSlots ka kb).withMem m := by
  simp only [State.swapSlots, apply_ite (State.withMem · m)]
  rfl

omit hagree in
theorem onSlot_withMem {l : Latch} {n : Nat} {rule rule' : Fin Config.numSlots → State}
    (h : ∀ k, rule' k = (rule k).withMem m) :
    onSlot (s.withMem m) l n rule' = (onSlot s l n rule).withMem m :=
  onSlot_map (f := (State.withMem · m)) rfl h

/-- A command other than `SER` leaves the same where the two memories differ in `M[0]` at most. -/
theorem commandEffect_withMem {i : Instr} (hi : ∀ n, i ≠ .ser n) (l : Latch) :
    commandEffect i (s.withMem m) l = (commandEffect i s l).withMem m := by
  cases i with
  | ser sa => exact absurd rfl (hi sa)
  | nop => rfl
  | crc => exact crcRule_withMem hagree l
  | create sa => exact onSlot_withMem (createRule_withMem hagree l)
  | adopt sa =>
    refine onSlot_withMem fun k => ?_
    simp only [adoptRule, apply_ite (State.withMem · m)]
    rfl
  | deser sa => exact onSlot_withMem (deserRule_withMem hagree _ l)
  | clear sa => exact onSlot_withMem fun k => rfl
  | free sa =>
    refine onSlot_withMem fun k => ?_
    rw [freeRule_eq_clearRule, zeroData_withMem]
    rfl
  | swap sa sb =>
    refine onSlot_withMem fun ka => onSlot_withMem fun kb => ?_
    rw [swapSlots_withMem]
    rfl

/-- Two runs from memories that differ in `M[0]` at most differ in `M[0]` at most, and leave it
(20_memory.md R41). -/
def BlindToByteZero (s u t t' : State) : Prop :=
  t' = t.withMem t'.mem ∧ t.readByte 0 = s.readByte 0 ∧ t'.readByte 0 = u.readByte 0
    ∧ ∀ a, a ≠ 0 → t'.readByte a = t.readByte a

/-- A run that leaves `M` alone. -/
theorem blindToByteZero_of_mem_eq {t : State} (h : t.mem = s.mem) :
    BlindToByteZero s (s.withMem m) t (t.withMem m) :=
  ⟨rfl, State.readByte_congr h 0, rfl, fun a ha => (hagree a ha).trans (State.readByte_congr h a).symm⟩

/-- The store of `SER` writes the same frame to both memories, past address 0. -/
theorem serStore_blindToByteZero {l : Latch} (k : Fin Config.numSlots) (h : l.dstAddr.toNat ≠ 0) :
    BlindToByteZero s (s.withMem m) (serStore s l k) (serStore (s.withMem m) l k) := by
  have hzero : ∀ u : State, (serStore u l k).readByte 0 = u.readByte 0 := fun u =>
    readByte_serStore_outside (.inl (Nat.pos_of_ne_zero h))
  refine ⟨rfl, hzero s, hzero _, fun a ha => ?_⟩
  have hframe : serFrame (s.withMem m) k = serFrame s k := rfl
  rw [readByte_serStore, readByte_serStore, State.readByte_writeMem, State.readByte_writeMem,
    hframe, hagree a ha]

theorem complete_blindToByteZero (l : Latch) (e : ErrorKind) (r : Word) :
    BlindToByteZero s (s.withMem m) (s.complete l e r) ((s.withMem m).complete l e r) :=
  blindToByteZero_of_mem_eq hagree rfl

/-- The checks of `SER` read no byte of `M`, and past them `DST_ADDR` is not 0. -/
theorem serRule_blindToByteZero (l : Latch) (k : Fin Config.numSlots) :
    BlindToByteZero s (s.withMem m) (serRule s l k) (serRule (s.withMem m) l k) := by
  have hslot : (s.withMem m).slot k = s.slot k := rfl
  simp only [serRule, hslot]
  split_ifs with hempty hnull hwraps hsmall
  · exact complete_blindToByteZero hagree l _ _
  · exact complete_blindToByteZero hagree l _ _
  · exact complete_blindToByteZero hagree l _ _
  · exact complete_blindToByteZero hagree l _ _
  · have haddr := isNull_eq_false.1 (Bool.eq_false_iff.2 hnull)
    exact serStore_blindToByteZero hagree k (by omega)

theorem commandEffect_blindToByteZero (i : Instr) (l : Latch) :
    BlindToByteZero s (s.withMem m) (commandEffect i s l) (commandEffect i (s.withMem m) l) := by
  by_cases hi : ∀ n, i ≠ .ser n
  · rw [commandEffect_withMem hagree hi]
    exact blindToByteZero_of_mem_eq hagree ((commandEffect_leaves i s l).mem hi)
  · simp only [not_forall, not_not] at hi
    obtain ⟨n, rfl⟩ := hi
    simp only [commandEffect, onSlot]
    cases slotIndex? n with
    | none => exact complete_blindToByteZero hagree l _ _
    | some k => exact serRule_blindToByteZero hagree l k

end ByteZero

end Sys2Proof.Machine

namespace Sys2Proof.Proofs.FrameFamily

open Sys2Proof Sys2Proof.Machine

/-- Settles O31: no rule reads or writes `M[0]`, since a null range is rejected first. -/
theorem engineIgnoresByteZero : Obligations.EngineIgnoresByteZero := by
  intro i s t m hagree hexec
  obtain ⟨l, hl, rfl⟩ := exec_eq_next.1 hexec
  exact ⟨_, exec_some (s := s.withMem m) hl i, commandEffect_blindToByteZero hagree i l⟩

/-- Settles O32: the latch does not change with the operand registers, and the rules read nothing else. -/
theorem commandsUseTheLatchedOperands : Obligations.CommandsUseTheLatchedOperands := by
  intro i s t a b c d e hexec
  obtain ⟨l, hl, rfl⟩ := exec_eq_next.1 hexec
  have hexec' := exec_some (s := s.withOperands a b c d e) hl i
  rw [commandEffect_withOperands] at hexec'
  exact hexec'

end Sys2Proof.Proofs.FrameFamily
